-- ==== Sys2Proof/Word.lean ====
section
/-! DEFINITION. Word: the widths HS32 works in (`00_scope.md` section 5, `XLEN` and `ILEN`). -/

namespace Sys2Proof

/-- A register, an instruction or an address: "All registers have a fixed length of 32-bits" (R10), instructions are 32 bits long (R61), an address is a register value (R40). -/
abbrev Word := BitVec 32

/-- The unit addresses count (R40); also an opcode (R70). -/
abbrev Byte := BitVec 8

/-- The 16-bit immediate of an I-type instruction, before extension (R63). -/
abbrev Half := BitVec 16

/-- An interrupt vector number, 0 to 31 (R30, R182). -/
abbrev VecNum := BitVec 5

end Sys2Proof
end

