-- ==== Sys2Proof/Syntax.lean ====
section
/-! DEFINITION. Syntax: the 38 instruction forms of HS32 rev2 (R2, R72), their operands, and the names the spec gives them. A field that a form ignores (R73) is not part of its constructor. -/

namespace Sys2Proof

/-- The sixteen register numbers of banks 1 and 2 (R11, R12, R13): 0 to 13, 14 the link register, 15 the program counter. -/
inductive Reg where
  | r0 | r1 | r2 | r3 | r4 | r5 | r6 | r7
  | r8 | r9 | r10 | r11 | r12 | r13
  | lr | pc
deriving DecidableEq, Repr

/-- The `dir` field (R67): left, right, sign-extended right, rotate right. -/
inductive ShiftDir where
  | shl | shr | srx | ror
deriving DecidableEq, Repr

/-- The operand `sh(Rn)` (R67, R68): a register, a shift amount 0 to 31 and a direction. -/
structure Shifted where
  rn  : Reg
  sh  : BitVec 5
  dir : ShiftDir
deriving DecidableEq, Repr

/-- The `bank` field (R66): 00 reserved, 01 supervisor, 10 interrupt, 11 bank 3. -/
inductive Bank where
  | reserved | supervisor | interrupt | bank3
deriving DecidableEq, Repr

/-- The condition predicates of R160. `other` is any further predicate on N, Z, C, V that a platform's `COND` may name (D3), as a truth table indexed by the number NZCV, N the most significant. -/
inductive Cond where
  | eq | ne | cs | cc | mi | pl | vs | vc | hi | ls | ge | lt | gt | le | al
  | other (truth : BitVec 16)
deriving DecidableEq, Repr

/-- The form keys of R72, one per row of the opcode table. -/
inductive Form where
  | ldrA | ldrI | ldrR | strA | strI | strR
  | movI | movR | movtI | movRb | movWb
  | addI | addR | addcI | addcR | subI | subR | subcI | subcR
  | rsubI | rsubR | rsubcI | rsubcR
  | andI | andR | bicI | bicR | orI | orR | xorI | xorR
  | cmpI | cmpR | tstI | tstR
  | b | bl | int
deriving DecidableEq, Repr

/-- One constructor per row of the opcode table, in the table's order; the rule of each is named beside it. `cond` is the raw 4-bit condition number (R74): `COND` (R160) says which predicate it names, if any. -/
inductive Instr where
  /-- `Rd <- [imm]` (R101) -/
  | ldrA (rd : Reg) (imm : Half)
  /-- `Rd <- [Rm + imm]` (R102) -/
  | ldrI (rd rm : Reg) (imm : Half)
  /-- `Rd <- [Rm + sh(Rn)]` (R103) -/
  | ldrR (rd rm : Reg) (op2 : Shifted)
  /-- `[imm] <- Rd` (R104) -/
  | strA (rd : Reg) (imm : Half)
  /-- `[Rm + imm] <- Rd` (R105) -/
  | strI (rd rm : Reg) (imm : Half)
  /-- `[Rm + sh(Rn)] <- Rd` (R106) -/
  | strR (rd rm : Reg) (op2 : Shifted)
  /-- `Rd <- imm` (R111) -/
  | movI (rd : Reg) (imm : Half)
  /-- `Rd <- sh(Rn)` (R112) -/
  | movR (rd : Reg) (op2 : Shifted)
  /-- `Rd.upper <- imm` (R110) -/
  | movtI (rd : Reg) (imm : Half)
  /-- `Rd <- Rm_b` (R113) -/
  | movRb (rd : Reg) (bank : Bank) (rm : Reg)
  /-- `Rd_b <- Rm` (R114) -/
  | movWb (bank : Bank) (rd rm : Reg)
  /-- `Rd <- Rm + imm` (R124) -/
  | addI (rd rm : Reg) (imm : Half)
  /-- `Rd <- Rm + sh(Rn)` (R125) -/
  | addR (rd rm : Reg) (op2 : Shifted)
  /-- `Rd <- Rm + imm + C` (R126) -/
  | addcI (rd rm : Reg) (imm : Half)
  /-- `Rd <- Rm + sh(Rn) + C` (R127) -/
  | addcR (rd rm : Reg) (op2 : Shifted)
  /-- `Rd <- Rm - imm` (R128) -/
  | subI (rd rm : Reg) (imm : Half)
  /-- `Rd <- Rm - sh(Rn)` (R129) -/
  | subR (rd rm : Reg) (op2 : Shifted)
  /-- `Rd <- Rm - imm - C` (R130) -/
  | subcI (rd rm : Reg) (imm : Half)
  /-- `Rd <- Rm - sh(Rn) - C` (R131) -/
  | subcR (rd rm : Reg) (op2 : Shifted)
  /-- `Rd <- imm - Rm` (R132) -/
  | rsubI (rd rm : Reg) (imm : Half)
  /-- `Rd <- sh(Rn) - Rm` (R133) -/
  | rsubR (rd rm : Reg) (op2 : Shifted)
  /-- `Rd <- imm - Rm - C` (R134) -/
  | rsubcI (rd rm : Reg) (imm : Half)
  /-- `Rd <- sh(Rn) - Rm - C` (R135) -/
  | rsubcR (rd rm : Reg) (op2 : Shifted)
  /-- `Rd <- Rm & imm` (R141) -/
  | andI (rd rm : Reg) (imm : Half)
  /-- `Rd <- Rm & sh(Rn)` (R142) -/
  | andR (rd rm : Reg) (op2 : Shifted)
  /-- `Rd <- Rm & ~imm` (R143) -/
  | bicI (rd rm : Reg) (imm : Half)
  /-- `Rd <- Rm & ~sh(Rn)` (R144, `90_conflicts.md` C3) -/
  | bicR (rd rm : Reg) (op2 : Shifted)
  /-- `Rd <- Rm | imm` (R145) -/
  | orI (rd rm : Reg) (imm : Half)
  /-- `Rd <- Rm | sh(Rn)` (R146) -/
  | orR (rd rm : Reg) (op2 : Shifted)
  /-- `Rd <- Rm ^ imm` (R147) -/
  | xorI (rd rm : Reg) (imm : Half)
  /-- `Rd <- Rm ^ sh(Rn)` (R148) -/
  | xorR (rd rm : Reg) (op2 : Shifted)
  /-- `Rm - imm` (R150) -/
  | cmpI (rm : Reg) (imm : Half)
  /-- `Rm - sh(Rn)` (R151) -/
  | cmpR (rm : Reg) (op2 : Shifted)
  /-- `Rm & imm` (R152) -/
  | tstI (rm : Reg) (imm : Half)
  /-- `Rm & sh(Rn)` (R153) -/
  | tstR (rm : Reg) (op2 : Shifted)
  /-- `B<c>`: `PC + Offset` (R162) -/
  | b (cond : BitVec 4) (imm : Half)
  /-- `B<c>L`: `PC + Offset`, linking (R163) -/
  | bl (cond : BitVec 4) (imm : Half)
  /-- `INT imm` (R170) -/
  | int (imm : Half)
deriving DecidableEq, Repr

end Sys2Proof
end

