-- ==== Sys2Proof/Config.lean ====
section
/-! DEFINITION. Config: the implementation parameters of `00_scope.md` section 5, as one plain record that State carries (log 7), and the free values, opaque so that no proof can see them. The spec's default of each parameter is `standardConfig` in Machine/Platform.lean. -/

namespace Sys2Proof

/-- `OPC` (R72, D1): a row gives a form its opcode byte. -/
abbrev OpcodeMap := List (Form × Byte)

/-- `COND` (R160, D3): a row gives a condition number its predicate; a number in no row is reserved. -/
abbrev CondMap := List (BitVec 4 × Cond)

/-- `SUB_C_OUT` (R121, D9): what C means after a subtraction. -/
inductive SubCOut where
  | borrow | notBorrow
deriving DecidableEq, Repr

/-- `LOGIC_CV` (R140, D10): C and V after a logical instruction. -/
inductive LogicCV where
  | any | unchanged | cleared
deriving DecidableEq, Repr

/-- `ENDIAN` (R43, D15): the order of a word's bytes in memory. -/
inductive Endian where
  | little | big
deriving DecidableEq, Repr

/-- `INT_WHEN_MASKED` (R170, D29): what INT does while MCR.I is 0. The spec's three values, and `trapOrNop`: one of the two effects the spec allows, it is not known which (log 16). -/
inductive IntWhenMasked where
  | refuse | trap | nop | trapOrNop
deriving DecidableEq, Repr

/-- What `MemMap` may give a word to (R44, R45). -/
inductive RegionKind where
  | ram | device | nothing
deriving DecidableEq, Repr

/-- A run of words, `first` to `last` inclusive, by word index `addr[31:2]` (R43). -/
structure Region where
  first : BitVec 30
  last  : BitVec 30
  kind  : RegionKind
deriving DecidableEq, Repr

/-- `MemMap` (R50, D19): the first region that holds a word decides; `rest` is every other word. -/
structure MemMap where
  regions : List Region
  rest    : RegionKind
deriving DecidableEq, Repr

/-- `VectorAddr` (R187, D28): `slots base` is the spec's `IVT_BASE + 4 * v`; `explicit` is any other function of the 32 vector numbers, listed. -/
inductive VectorTable where
  | slots (base : Word)
  | explicit (addr : Vector Word 32)
deriving DecidableEq, Repr

/-- The implementation parameters (`00_scope.md` section 5). -/
structure Config where
  opc           : OpcodeMap
  cond          : CondMap
  /-- `PC_BIAS` (R18, D4) -/
  pcBias        : Word
  subCOut       : SubCOut
  logicCV       : LogicCV
  endian        : Endian
  memMap        : MemMap
  /-- `RESET_PC` (R38, R211, D33) -/
  resetPc       : Word
  vectors       : VectorTable
  intWhenMasked : IntWhenMasked
  /-- `RESET_I` (R38, D33) -/
  resetI        : Bool
deriving DecidableEq, Repr

/-- FREE VALUE. The `n`-th 32-bit value the rules do not fix (`any`, `00_scope.md` section 7.3): a device's answer beyond those listed (R44), the reserved bits of a value read from `flags` or `mcr` (R26, R33). Logs 11, 12, 14. -/
opaque Config.anyWord : Nat → Word

/-- FREE VALUE. The `n`-th flag the rules do not fix: C and V after a logical instruction (R140). Logs 12, 13. -/
opaque Config.anyFlag : Nat → Bool

/-- FREE VALUE. The `n`-th answer of an `IrqSource` of which nothing is known (R182). Log 10. -/
opaque Config.anyIrq : Nat → Option VecNum

/-- FREE VALUE. Whether the implementation's INT ignores the mask, where `INT_WHEN_MASKED` is `trapOrNop` (R170). Log 16. -/
opaque Config.maskedIntTraps : Bool

end Sys2Proof
end

