-- ==== Sys2Proof/Machine/Bits.lean ====
section
/-! DEFINITION. Bits: replacing the bits a mask selects, and the order of a word's bytes in memory (R43). -/

namespace Sys2Proof.Machine

/-- `old` with the bits that `mask` selects taken from `new`. -/
def merge (mask old new : Word) : Word :=
  (old &&& ~~~mask) ||| (new &&& mask)

/-- The byte of `w` at offset `i` (0 to 3) from the word's address: little-endian puts bits 7:0 at offset 0 and 31:24 at offset 3 (R43); big-endian the other way round (log 20). -/
def byteOf (e : Endian) (w : Word) (i : Nat) : Byte :=
  match e with
  | .little => w.extractLsb' (8 * i) 8
  | .big => w.extractLsb' (8 * (3 - i)) 8

/-- The word whose bytes at offsets 0, 1, 2, 3 are `b0` to `b3`. -/
def joinBytes (e : Endian) (b0 b1 b2 b3 : Byte) : Word :=
  match e with
  | .little => b3 ++ b2 ++ b1 ++ b0
  | .big => b0 ++ b1 ++ b2 ++ b3

end Sys2Proof.Machine
end

