-- ==== Sys2Proof/Decode.lean ====
section
/-! DEFINITION. Decode: from an instruction word to an instruction (R60 to R78), and back (`encode`). The opcode byte alone selects the form (R70); a word whose opcode byte no form has is rejected by name (R78). A reserved VALUE of a used field (R77) decodes: its instruction faults when it executes (log 19). -/

namespace Sys2Proof

/-! ### Names of the fields' values -/

/-- The register of a 4-bit register number (R13). -/
def Reg.ofNumber (n : BitVec 4) : Reg :=
  match n.toNat with
  | 0 => .r0 | 1 => .r1 | 2 => .r2 | 3 => .r3 | 4 => .r4 | 5 => .r5 | 6 => .r6 | 7 => .r7
  | 8 => .r8 | 9 => .r9 | 10 => .r10 | 11 => .r11 | 12 => .r12 | 13 => .r13 | 14 => .lr
  | _ => .pc

/-- The 4-bit register number (R13). -/
def Reg.number : Reg → BitVec 4
  | .r0 => 0 | .r1 => 1 | .r2 => 2 | .r3 => 3 | .r4 => 4 | .r5 => 5 | .r6 => 6 | .r7 => 7
  | .r8 => 8 | .r9 => 9 | .r10 => 10 | .r11 => 11 | .r12 => 12 | .r13 => 13 | .lr => 14
  | .pc => 15

/-- The direction of a `dir` field (R67). -/
def ShiftDir.ofNumber (n : BitVec 2) : ShiftDir :=
  match n.toNat with
  | 0 => .shl | 1 => .shr | 2 => .srx | _ => .ror

/-- The `dir` field of a direction (R67). -/
def ShiftDir.number : ShiftDir → BitVec 2
  | .shl => 0 | .shr => 1 | .srx => 2 | .ror => 3

/-- The bank of a `bank` field (R66). -/
def Bank.ofNumber (n : BitVec 2) : Bank :=
  match n.toNat with
  | 0 => .reserved | 1 => .supervisor | 2 => .interrupt | _ => .bank3

/-- The `bank` field of a bank (R66). -/
def Bank.number : Bank → BitVec 2
  | .reserved => 0 | .supervisor => 1 | .interrupt => 2 | .bank3 => 3

/-! ### The fields of a word (R62, R63, R65) -/

def opcodeField (w : Word) : Byte := w.extractLsb' 24 8
def rdField (w : Word) : BitVec 4 := w.extractLsb' 20 4
def rmField (w : Word) : BitVec 4 := w.extractLsb' 16 4
def imm16Field (w : Word) : Half := w.extractLsb' 0 16
def rnField (w : Word) : BitVec 4 := w.extractLsb' 12 4
def shField (w : Word) : BitVec 5 := w.extractLsb' 7 5
def dirField (w : Word) : BitVec 2 := w.extractLsb' 5 2
def bankField (w : Word) : BitVec 2 := w.extractLsb' 3 2

/-- The destination register operand. -/
def rdOf (w : Word) : Reg := .ofNumber (rdField w)

/-- The first source register operand. -/
def rmOf (w : Word) : Reg := .ofNumber (rmField w)

/-- The operand `sh(Rn)` of an R-type word (R67). -/
def shiftedOf (w : Word) : Shifted :=
  { rn := .ofNumber (rnField w), sh := shField w, dir := .ofNumber (dirField w) }

/-- The bank operand of the two banked MOV forms (R66). -/
def bankOf (w : Word) : Bank := .ofNumber (bankField w)

/-! ### The opcode map and the condition map -/

/-- R72, groups 000 to 010: load, store, move. -/
def opcLoadStoreMove : OpcodeMap :=
  [(.ldrA, 0x00), (.ldrI, 0x02), (.ldrR, 0x03), (.strA, 0x20), (.strI, 0x22), (.strR, 0x23),
   (.movI, 0x40), (.movR, 0x41), (.movtI, 0x42), (.movRb, 0x43), (.movWb, 0x45)]

/-- R72, group 011: add and subtract. -/
def opcArith : OpcodeMap :=
  [(.addI, 0x60), (.addR, 0x61), (.addcI, 0x62), (.addcR, 0x63),
   (.subI, 0x64), (.subR, 0x65), (.subcI, 0x66), (.subcR, 0x67),
   (.rsubI, 0x68), (.rsubR, 0x69), (.rsubcI, 0x6A), (.rsubcR, 0x6B)]

/-- R72, groups 100 to 111: logical, compare, branch, system. -/
def opcLogicToSystem : OpcodeMap :=
  [(.andI, 0x80), (.andR, 0x81), (.bicI, 0x82), (.bicR, 0x83),
   (.orI, 0x84), (.orR, 0x85), (.xorI, 0x86), (.xorR, 0x87),
   (.cmpI, 0xA0), (.cmpR, 0xA1), (.tstI, 0xA2), (.tstR, 0xA3),
   (.b, 0xC0), (.bl, 0xC2), (.int, 0xE0)]

/-- The default opcode map `OPC` (R72, D1). -/
def standardOpc : OpcodeMap := opcLoadStoreMove ++ (opcArith ++ opcLogicToSystem)

/-- The form whose opcode byte is `op`, if any (R70, R78). -/
def formOf (opc : OpcodeMap) (op : Byte) : Option Form :=
  (opc.find? fun row => row.2 == op).map Prod.fst

/-- The opcode byte of a form; 0 for a form the map leaves out. -/
def opcodeOf (opc : OpcodeMap) (f : Form) : Byte :=
  match opc.find? fun row => row.1 == f with
  | some row => row.2
  | none => 0

/-- Every form, in the order of the opcode table. -/
def allForms : List Form :=
  [.ldrA, .ldrI, .ldrR, .strA, .strI, .strR, .movI, .movR, .movtI, .movRb, .movWb,
   .addI, .addR, .addcI, .addcR, .subI, .subR, .subcI, .subcR,
   .rsubI, .rsubR, .rsubcI, .rsubcR,
   .andI, .andR, .bicI, .bicR, .orI, .orR, .xorI, .xorR,
   .cmpI, .cmpR, .tstI, .tstR, .b, .bl, .int]

/-- `OPC` gives every form an opcode byte, and no two forms the same one (D1: it "must be injective"). -/
def lawfulOpc (opc : OpcodeMap) : Bool :=
  allForms.all fun f => formOf opc (opcodeOf opc f) == some f

/-- The predicate a condition number names, `none` for a reserved number (R160). -/
def condOf (cond : CondMap) (n : BitVec 4) : Option Cond :=
  (cond.find? fun row => row.1 == n).map Prod.snd

/-- The default condition map `COND` (R160, D3); 0b1111 is in no row. -/
def standardCond : CondMap :=
  [(0, .eq), (1, .ne), (2, .cs), (3, .cc), (4, .mi), (5, .pl), (6, .vs), (7, .vc),
   (8, .hi), (9, .ls), (10, .ge), (11, .lt), (12, .gt), (13, .le), (14, .al)]

/-! ### Decoding -/

/-- Why bytes are no instruction. -/
inductive DecodeError where
  /-- the opcode byte is not a value of `OPC` (R78) -/
  | undefinedOpcode (op : Byte)
  /-- fewer than the four bytes of an instruction (R61) -/
  | truncated
deriving DecidableEq, Repr

/-- The instruction of a form whose fields stand in `w` (R73, R75): the fields R73 marks ignored take no part. -/
def instrOf (f : Form) (w : Word) : Instr :=
  match f with
  | .ldrA => .ldrA (rdOf w) (imm16Field w)
  | .ldrI => .ldrI (rdOf w) (rmOf w) (imm16Field w)
  | .ldrR => .ldrR (rdOf w) (rmOf w) (shiftedOf w)
  | .strA => .strA (rdOf w) (imm16Field w)
  | .strI => .strI (rdOf w) (rmOf w) (imm16Field w)
  | .strR => .strR (rdOf w) (rmOf w) (shiftedOf w)
  | .movI => .movI (rdOf w) (imm16Field w)
  | .movR => .movR (rdOf w) (shiftedOf w)
  | .movtI => .movtI (rdOf w) (imm16Field w)
  | .movRb => .movRb (rdOf w) (bankOf w) (rmOf w)
  | .movWb => .movWb (bankOf w) (rdOf w) (rmOf w)
  | .addI => .addI (rdOf w) (rmOf w) (imm16Field w)
  | .addR => .addR (rdOf w) (rmOf w) (shiftedOf w)
  | .addcI => .addcI (rdOf w) (rmOf w) (imm16Field w)
  | .addcR => .addcR (rdOf w) (rmOf w) (shiftedOf w)
  | .subI => .subI (rdOf w) (rmOf w) (imm16Field w)
  | .subR => .subR (rdOf w) (rmOf w) (shiftedOf w)
  | .subcI => .subcI (rdOf w) (rmOf w) (imm16Field w)
  | .subcR => .subcR (rdOf w) (rmOf w) (shiftedOf w)
  | .rsubI => .rsubI (rdOf w) (rmOf w) (imm16Field w)
  | .rsubR => .rsubR (rdOf w) (rmOf w) (shiftedOf w)
  | .rsubcI => .rsubcI (rdOf w) (rmOf w) (imm16Field w)
  | .rsubcR => .rsubcR (rdOf w) (rmOf w) (shiftedOf w)
  | .andI => .andI (rdOf w) (rmOf w) (imm16Field w)
  | .andR => .andR (rdOf w) (rmOf w) (shiftedOf w)
  | .bicI => .bicI (rdOf w) (rmOf w) (imm16Field w)
  | .bicR => .bicR (rdOf w) (rmOf w) (shiftedOf w)
  | .orI => .orI (rdOf w) (rmOf w) (imm16Field w)
  | .orR => .orR (rdOf w) (rmOf w) (shiftedOf w)
  | .xorI => .xorI (rdOf w) (rmOf w) (imm16Field w)
  | .xorR => .xorR (rdOf w) (rmOf w) (shiftedOf w)
  | .cmpI => .cmpI (rmOf w) (imm16Field w)
  | .cmpR => .cmpR (rmOf w) (shiftedOf w)
  | .tstI => .tstI (rmOf w) (imm16Field w)
  | .tstR => .tstR (rmOf w) (shiftedOf w)
  | .b => .b (rdField w) (imm16Field w)
  | .bl => .bl (rdField w) (imm16Field w)
  | .int => .int (imm16Field w)

/-- Decoding a word (R75): total; only an unassigned opcode is rejected (R78). -/
def decode (opc : OpcodeMap) (w : Word) : Except DecodeError Instr :=
  match formOf opc (opcodeField w) with
  | some f => .ok (instrOf f w)
  | none => .error (.undefinedOpcode (opcodeField w))

/-- Decoding from bytes as memory holds them, with the bytes that follow the instruction. -/
def decodeBytes (opc : OpcodeMap) (e : Endian) : List Byte → Except DecodeError (Instr × List Byte)
  | b0 :: b1 :: b2 :: b3 :: rest =>
    match decode opc (Machine.joinBytes e b0 b1 b2 b3) with
    | .ok i => .ok (i, rest)
    | .error err => .error err
  | _ => .error .truncated

/-- The instruction that the decoder reads, under the default `OPC` and `ENDIAN`, from an instruction whose bits are `w` (bit 0 the least significant of its one 32-bit word), every bit from `nbits` up being 0. -/
def decodeTableWord (nbits w : Nat) : Option Instr :=
  let word : Word := BitVec.ofNat 32 (w % 2 ^ nbits)
  let bytes := [Machine.byteOf .little word 0, Machine.byteOf .little word 1,
    Machine.byteOf .little word 2, Machine.byteOf .little word 3]
  match decodeBytes standardOpc .little bytes with
  | .ok (i, _) => some i
  | .error _ => none

/-! ### Encoding -/

/-- The form of an instruction. -/
def Instr.form : Instr → Form
  | .ldrA .. => .ldrA | .ldrI .. => .ldrI | .ldrR .. => .ldrR
  | .strA .. => .strA | .strI .. => .strI | .strR .. => .strR
  | .movI .. => .movI | .movR .. => .movR | .movtI .. => .movtI
  | .movRb .. => .movRb | .movWb .. => .movWb
  | .addI .. => .addI | .addR .. => .addR | .addcI .. => .addcI | .addcR .. => .addcR
  | .subI .. => .subI | .subR .. => .subR | .subcI .. => .subcI | .subcR .. => .subcR
  | .rsubI .. => .rsubI | .rsubR .. => .rsubR | .rsubcI .. => .rsubcI | .rsubcR .. => .rsubcR
  | .andI .. => .andI | .andR .. => .andR | .bicI .. => .bicI | .bicR .. => .bicR
  | .orI .. => .orI | .orR .. => .orR | .xorI .. => .xorI | .xorR .. => .xorR
  | .cmpI .. => .cmpI | .cmpR .. => .cmpR | .tstI .. => .tstI | .tstR .. => .tstR
  | .b .. => .b | .bl .. => .bl | .int .. => .int

/-- An I-type word (R63). -/
def iType (op : Byte) (rd rm : BitVec 4) (imm : Half) : Word :=
  op ++ rd ++ rm ++ imm

/-- An R-type word with the reserved bits 2:0 zero (R65). -/
def rType (op : Byte) (rd rm rn : BitVec 4) (sh : BitVec 5) (dir bank : BitVec 2) : Word :=
  op ++ rd ++ rm ++ rn ++ sh ++ dir ++ bank ++ (0 : BitVec 3)

/-- An R-type word with operand `sh(Rn)` and the ignored `bank` field zero. -/
def rTypeShifted (op : Byte) (rd rm : BitVec 4) (op2 : Shifted) : Word :=
  rType op rd rm op2.rn.number op2.sh op2.dir.number 0

/-- The word of an instruction; 0 in every field its form ignores (R73: "an assembler writes 0 there"). -/
def encode (opc : OpcodeMap) (i : Instr) : Word :=
  let op := opcodeOf opc i.form
  match i with
  | .ldrA rd imm | .strA rd imm | .movI rd imm | .movtI rd imm => iType op rd.number 0 imm
  | .ldrI rd rm imm | .strI rd rm imm => iType op rd.number rm.number imm
  | .addI rd rm imm | .addcI rd rm imm | .subI rd rm imm | .subcI rd rm imm
  | .rsubI rd rm imm | .rsubcI rd rm imm => iType op rd.number rm.number imm
  | .andI rd rm imm | .bicI rd rm imm | .orI rd rm imm | .xorI rd rm imm =>
    iType op rd.number rm.number imm
  | .ldrR rd rm op2 | .strR rd rm op2 => rTypeShifted op rd.number rm.number op2
  | .addR rd rm op2 | .addcR rd rm op2 | .subR rd rm op2 | .subcR rd rm op2
  | .rsubR rd rm op2 | .rsubcR rd rm op2 => rTypeShifted op rd.number rm.number op2
  | .andR rd rm op2 | .bicR rd rm op2 | .orR rd rm op2 | .xorR rd rm op2 =>
    rTypeShifted op rd.number rm.number op2
  | .movR rd op2 => rTypeShifted op rd.number 0 op2
  | .cmpI rm imm | .tstI rm imm => iType op 0 rm.number imm
  | .cmpR rm op2 | .tstR rm op2 => rTypeShifted op 0 rm.number op2
  | .movRb rd bank rm | .movWb bank rd rm => rType op rd.number rm.number 0 0 0 bank.number
  | .b cond imm | .bl cond imm => iType op cond 0 imm
  | .int imm => iType op 0 0 imm

/-- The bits of a word that its form reads (R73, R76): two words of a form that agree on them are one instruction. -/
def usedBits : Form → Word
  | .ldrA | .strA | .movI | .movtI | .b | .bl => 0xFFF0FFFF
  | .ldrI | .strI => 0xFFFFFFFF
  | .addI | .addcI | .subI | .subcI | .rsubI | .rsubcI => 0xFFFFFFFF
  | .andI | .bicI | .orI | .xorI => 0xFFFFFFFF
  | .ldrR | .strR => 0xFFFFFFE0
  | .addR | .addcR | .subR | .subcR | .rsubR | .rsubcR => 0xFFFFFFE0
  | .andR | .bicR | .orR | .xorR => 0xFFFFFFE0
  | .movR => 0xFFF0FFE0
  | .movRb | .movWb => 0xFFFF0018
  | .cmpI | .tstI => 0xFF0FFFFF
  | .cmpR | .tstR => 0xFF0FFFE0
  | .int => 0xFF00FFFF

/-! ### The aliases of R82 -/

/-- `NOP` is `MOV r0, r0`. -/
def aliasNop : Instr := .movR .r0 { rn := .r0, sh := 0, dir := .shl }

/-- `RET` is `MOV pc, lr`. -/
def aliasRet : Instr := .movR .pc { rn := .lr, sh := 0, dir := .shl }

/-- `HALT` is `B 0` with the condition always: the end-of-run marker of R5 and R216. -/
def aliasHalt : Instr := .b 14 0

end Sys2Proof
end

