-- ==== Sys2Proof/Machine/Platform.lean ====
section
/-! DEFINITION. Platform: the parameters' default values, and the reading of the two that are maps over addresses and vector numbers. -/

namespace Sys2Proof.Machine

/-- The spec's default of every parameter (`00_scope.md` section 5); the OPEN ones at the values of its test programs (`95_test_vectors.md`): `RESET_PC` 0, `IVT_BASE` 0x100, every word RAM (logs 4 to 7). `INT_WHEN_MASKED` is left open between the two effects the spec allows, in place of the spec's `refuse` (log 16). -/
def standardConfig : Config where
  opc := standardOpc
  cond := standardCond
  pcBias := 0
  subCOut := .borrow
  logicCV := .any
  endian := .little
  memMap := { regions := [], rest := .ram }
  resetPc := 0
  vectors := .slots 0x100
  intWhenMasked := .trapOrNop
  resetI := false

/-- Whether a region holds the word at address `a`. -/
def regionHolds (r : Region) (a : Word) : Bool :=
  r.first.ule (a.extractLsb' 2 30) && (a.extractLsb' 2 30).ule r.last

/-- What `MemMap` gives the word at address `a` to (R44, R45, R50). -/
def kindAt (m : MemMap) (a : Word) : RegionKind :=
  match m.regions.find? fun r => regionHolds r a with
  | some r => r.kind
  | none => m.rest

/-- `VectorAddr(v)` (R187): the address control goes to when vector `v` is taken. -/
def vectorAddr (t : VectorTable) (v : VecNum) : Word :=
  match t with
  | .slots base => base + 4 * v.setWidth 32
  | .explicit addr => addr[v.toNat]

end Sys2Proof.Machine
end

