-- ==== Sys2Proof/Machine/State.lean ====
section
/-! DEFINITION. State: the 25 registers of R10, memory, the environment's answers and record, the implementation parameters and the count of free values drawn; the reasons a step can stop; the state after reset (R38). -/

namespace Sys2Proof.Machine

/-- The two modes (R180): supervisor and IRQ. -/
inductive Mode where
  | sup | irq
deriving DecidableEq, Repr

/-- r0 to r7: one copy, used in both modes (R13). -/
structure SharedRegs where
  r0 : Word
  r1 : Word
  r2 : Word
  r3 : Word
  r4 : Word
  r5 : Word
  r6 : Word
  r7 : Word
deriving DecidableEq, Repr

/-- r8 to r13 and lr: one copy per mode (R13). -/
structure BankRegs where
  r8  : Word
  r9  : Word
  r10 : Word
  r11 : Word
  r12 : Word
  r13 : Word
  lr  : Word
deriving DecidableEq, Repr

/-- A device access as the environment sees it (R45, R49): a read with the answer it got, or a write. -/
inductive DevEvent where
  | read (addr value : Word)
  | write (addr value : Word)
deriving DecidableEq, Repr

/-- The answers `IrqSource` will give, one per instruction boundary for ever (R182, log 10): `none` is "no request", `some v` a request with vector number `v`. -/
inductive IrqSource where
  /-- the same answer at this and every later boundary -/
  | always (answer : Option VecNum)
  /-- free answers, of which nothing is known: the `n`-th at this boundary, then the ones after it -/
  | free (n : Nat)
  /-- this answer at this boundary, then those of `rest` -/
  | listed (answer : Option VecNum) (rest : IrqSource)
deriving DecidableEq, Repr

/-- Bytes at addresses, in one canonical form (Machine/Memory.lean). -/
abbrev Memory := List Host.Cell

structure State where
  /-- r0 to r7 (R10, R13) -/
  g : SharedRegs
  /-- bank 1: r8_s to r13_s, lr_s (R10, R13) -/
  bankS : BankRegs
  /-- bank 2: r8_i to r13_i, lr_i (R10, R13) -/
  bankI : BankRegs
  /-- the program counter (R18): between instructions, the address of the next one -/
  pc : Word
  /-- the program status register (R23) -/
  flags : Word
  /-- the machine configuration register (R27) -/
  mcr : Word
  /-- memory (R40, R44) -/
  mem : Memory
  /-- the implementation parameters (the model's own field, log 7) -/
  cfg : Config
  /-- the answers `IrqSource` will give, one per instruction boundary (R182, log 10) -/
  irqIn : IrqSource
  /-- the words devices will answer (R44, log 11) -/
  devIn : List Word
  /-- the device accesses made, oldest first (R49, R53, log 11) -/
  devLog : List DevEvent
  /-- how many free values have been drawn (the model's own field, log 12) -/
  draws : Nat
deriving DecidableEq, Repr

/-- Verdicts of the model where the spec gives a situation no effect (`93_implementation_defined.md` part 3); none is an event of the machine (R184). All are SAFE: the model stops where a chip might go on. -/
inductive Fault where
  /-- the fetch of an instruction at an address that is not a multiple of 4 (R47). Safe. -/
  | unalignedFetch
  /-- LDR or STR at an address that is not a multiple of 4 (R46). Safe. -/
  | unalignedData
  /-- a fetch, LDR or STR at a word that `MemMap` gives to nothing (R52). Safe. -/
  | unmappedAccess
  /-- the fetch of a word whose opcode byte no form has (R78). Safe. -/
  | undefinedOpcode
  /-- a banked MOV with `bank` 0b00 (R16, R77). Safe. -/
  | reservedBank
  /-- a banked MOV naming register 2 to 15 of bank 3 (R16, R35, R77). Safe. -/
  | reservedBank3Register
  /-- a branch with a condition number that names no predicate, 0b1111 by default (R77, R160). Safe. -/
  | reservedCondition
  /-- INT with a nonzero `imm16[15:5]` (R77, R170). Safe. -/
  | reservedIntVector
deriving DecidableEq, Repr

/-- Steps the model gives no meaning. -/
inductive Refusal where
  /-- an instruction the model has no meaning for, raised by `exec` alone; no arm of this model answers with it. Safe. -/
  | notModelled (mnemonic : String)
  /-- a step taken with MCR.DBG = 1 (R200). Safe. -/
  | debugMode
  /-- INT with MCR.I = 0 when `INT_WHEN_MASKED` is `refuse` (R170). Safe. -/
  | maskedInt
deriving DecidableEq, Repr

/-- What a step or a meaning answers. -/
abbrev Result := Host.Outcome State Fault Refusal

/-- The state after reset on a platform with parameters `c` (R38, R210): supervisor mode, I = RESET_I, DBG = 0, pc = RESET_PC. Everything whose value R38 leaves unspecified is 0 (DESIGN CHOICE, logs 1 to 3). -/
def State.resetOn (c : Config) : State where
  g := { r0 := 0, r1 := 0, r2 := 0, r3 := 0, r4 := 0, r5 := 0, r6 := 0, r7 := 0 }
  bankS := { r8 := 0, r9 := 0, r10 := 0, r11 := 0, r12 := 0, r13 := 0, lr := 0 }
  bankI := { r8 := 0, r9 := 0, r10 := 0, r11 := 0, r12 := 0, r13 := 0, lr := 0 }
  pc := c.resetPc
  flags := 0
  mcr := if c.resetI then 3 else 2
  mem := []
  cfg := c
  irqIn := .always none
  devIn := []
  devLog := []
  draws := 0

/-- The machine right after reset, with the spec's default parameters. -/
def State.reset : State := State.resetOn standardConfig

end Sys2Proof.Machine
end

