-- ==== Sys2Proof/Machine/Memory.lean ====
section
/-! DEFINITION. Memory: the byte store. A memory is a list of (address, byte) with strictly rising addresses below 2^32 and no byte equal to what an unlisted address reads as, so that equal memories are equal lists. -/

namespace Sys2Proof.Machine

/-- What a RAM byte that nothing has written reads as: DESIGN CHOICE, unsafe (log 3). -/
def unwrittenByte : Byte := 0

/-- The byte at address `a`. -/
def Memory.byte : Memory → Nat → Byte
  | [], _ => unwrittenByte
  | (k, c) :: rest, a =>
    if k = a then c else if a < k then unwrittenByte else Memory.byte rest a

/-- The memory with byte `b` at address `a`. -/
def Memory.setByte : Memory → Nat → Byte → Memory
  | [], a, b => if b = unwrittenByte then [] else [(a, b)]
  | (k, c) :: rest, a, b =>
    if k < a then (k, c) :: Memory.setByte rest a b
    else if k = a then (if b = unwrittenByte then rest else (a, b) :: rest)
    else if b = unwrittenByte then (k, c) :: rest
    else (a, b) :: (k, c) :: rest

/-- The canonical form from address `lo` up. -/
def Memory.wfFrom : Nat → Memory → Bool
  | _, [] => true
  | lo, (k, c) :: rest =>
    decide (lo ≤ k) && decide (k < 2 ^ 32) && (c != unwrittenByte) && Memory.wfFrom (k + 1) rest

/-- The canonical form. -/
def Memory.wf (m : Memory) : Bool := Memory.wfFrom 0 m

/-- The word whose four bytes start at address `a` (R43, R44). -/
def Memory.word (e : Endian) (m : Memory) (a : Nat) : Word :=
  joinBytes e (Memory.byte m a) (Memory.byte m (a + 1)) (Memory.byte m (a + 2))
    (Memory.byte m (a + 3))

/-- The memory with the four bytes from address `a` up holding `w`; the whole word is written (R45). -/
def Memory.setWord (e : Endian) (m : Memory) (a : Nat) (w : Word) : Memory :=
  Memory.setByte (Memory.setByte (Memory.setByte (Memory.setByte m
    a (byteOf e w 0)) (a + 1) (byteOf e w 1)) (a + 2) (byteOf e w 2)) (a + 3) (byteOf e w 3)

end Sys2Proof.Machine
end

