-- ==== Sys2Proof/Machine/Flags.lean ====
section
/-! DEFINITION. Flags: N, Z, C, V as results of an operation (R120, R121, R140), as bits of `flags` (R23), and as what a condition tests (R160). -/

namespace Sys2Proof.Machine

/-- The four flags. -/
structure Nzcv where
  n : Bool
  z : Bool
  c : Bool
  v : Bool
deriving DecidableEq, Repr

/-- The bits of `flags` that are not reserved: 11:8 (R23). -/
def nzcvMask : Word := 0xF00

/-- N, Z, C, V at `flags[11:8]`, N the most significant (R23). -/
def nzcvOf (w : Word) : Nzcv :=
  { n := w.getLsbD 11, z := w.getLsbD 10, c := w.getLsbD 9, v := w.getLsbD 8 }

/-- The word that holds the four flags at bits 11:8 and 0 elsewhere. -/
def nzcvWord (f : Nzcv) : Word :=
  (0 : BitVec 20) ++ BitVec.ofBool f.n ++ BitVec.ofBool f.z ++ BitVec.ofBool f.c ++
    BitVec.ofBool f.v ++ (0 : BitVec 8)

/-- Whether an exact signed result does not fit in 32 bits. -/
def signedOverflow (x : Int) : Bool := decide (x < -2 ^ 31 ∨ 2 ^ 31 ≤ x)

/-- `AddC(a, b, cin)` (R120). -/
def addC (a b : Word) (cin : Bool) : Word × Nzcv :=
  let t : Nat := a.toNat + b.toNat + cin.toNat
  let r : Word := BitVec.ofNat 32 t
  (r, { n := r.getLsbD 31
        z := decide (r = 0)
        c := decide (2 ^ 32 ≤ t)
        v := signedOverflow (a.toInt + b.toInt + cin.toNat) })

/-- `SubB(a, b, bin)` (R121): C is the borrow, inverted when `SUB_C_OUT` is `not_borrow`. -/
def subB (co : SubCOut) (a b : Word) (bin : Bool) : Word × Nzcv :=
  let d : Int := (a.toNat : Int) - b.toNat - bin.toNat
  let r : Word := BitVec.ofInt 32 d
  (r, { n := r.getLsbD 31
        z := decide (r = 0)
        c := match co with
          | .borrow => decide (d < 0)
          | .notBorrow => decide (0 ≤ d)
        v := signedOverflow (a.toInt - b.toInt - bin.toNat) })

/-- The flags of a logical result (R140): N and Z from the result, `c` and `v` as given. -/
def logicNzcv (r : Word) (c v : Bool) : Nzcv :=
  { n := r.getLsbD 31, z := decide (r = 0), c := c, v := v }

/-- The four flags as a number, N the most significant: the index of a truth table. -/
def Nzcv.index (f : Nzcv) : Nat := 8 * f.n.toNat + 4 * f.z.toNat + 2 * f.c.toNat + f.v.toNat

/-- Whether a condition's predicate holds (R160). CS, CC, HI and LS read C as a borrow, so under `not_borrow` they read it inverted. -/
def condHolds (co : SubCOut) (k : Cond) (f : Nzcv) : Bool :=
  let c := match co with
    | .borrow => f.c
    | .notBorrow => !f.c
  match k with
  | .eq => f.z
  | .ne => !f.z
  | .cs => c
  | .cc => !c
  | .mi => f.n
  | .pl => !f.n
  | .vs => f.v
  | .vc => !f.v
  | .hi => !c && !f.z
  | .ls => c || f.z
  | .ge => f.n == f.v
  | .lt => f.n != f.v
  | .gt => !f.z && (f.n == f.v)
  | .le => f.z || (f.n != f.v)
  | .al => true
  | .other truth => truth.getLsbD f.index

end Sys2Proof.Machine
end

