-- ==== Sys2Proof/Machine/Ops.lean ====
section
/-! DEFINITION. Ops: the named operations every meaning is built from: the registers by the current view and by bank (R14 to R16), `flags` and `mcr` (R23 to R35), memory and devices (R44 to R53), free values, writing a result (R15, R19, R20), and trap entry (R186). -/

namespace Sys2Proof.Machine

/-! ### `mcr` fields (R27) -/

/-- MCR.I: interrupts are accepted when 1 (R28). -/
def State.intEnabled (s : State) : Bool := s.mcr.getLsbD 0

/-- The mode, MCR.S (R29). -/
def State.mode (s : State) : Mode := if s.mcr.getLsbD 1 then .sup else .irq

/-- MCR.V (R30). -/
def State.savedVector (s : State) : VecNum := s.mcr.extractLsb' 3 5

/-- MCR.F as the four flags: F and NZCV share bits 11:8 (R30). -/
def State.savedFlags (s : State) : Nzcv := nzcvOf s.mcr

/-- MCR.DBG (R31). -/
def State.debugOn (s : State) : Bool := s.mcr.getLsbD 14

/-- The bits of `mcr` that are not reserved: all but 2 and 13:12 (R27, R33). -/
def mcrNamedMask : Word := 0xFFFFCFFB

/-! ### Flags (R23) -/

/-- N, Z, C, V. -/
def State.nzcv (s : State) : Nzcv := nzcvOf s.flags

/-- `NZCV <- f`, the rest of `flags` left alone. -/
def State.setNzcv (s : State) (f : Nzcv) : State :=
  { s with flags := merge nzcvMask s.flags (nzcvWord f) }

/-- Two more free values drawn. -/
def State.drawTwo (s : State) : State := { s with draws := s.draws + 2 }

/-- The flags of a logical instruction (R140): N and Z from the result; C and V by `LOGIC_CV`, two free values when it is `any` (log 13). -/
def State.setLogicFlags (s : State) (r : Word) : State :=
  match s.cfg.logicCV with
  | .any =>
    (s.drawTwo).setNzcv (logicNzcv r (Config.anyFlag s.draws) (Config.anyFlag (s.draws + 1)))
  | .unchanged => s.setNzcv (logicNzcv r s.nzcv.c s.nzcv.v)
  | .cleared => s.setNzcv (logicNzcv r false false)

/-! ### Registers -/

/-- The bank of a mode (R180). -/
def State.bank (s : State) : Mode → BankRegs
  | .sup => s.bankS
  | .irq => s.bankI

/-- Replaces the bank of a mode. -/
def State.setBank (s : State) (m : Mode) (b : BankRegs) : State :=
  match m with
  | .sup => { s with bankS := b }
  | .irq => { s with bankI := b }

/-- Register `r` as mode `m` sees it (R14, R16 banks 01 and 10); pc reads as `A + PC_BIAS` (R18), where A is the `pc` of the state an instruction starts in. -/
def State.readIn (s : State) (m : Mode) (r : Reg) : Word :=
  match r with
  | .r0 => s.g.r0
  | .r1 => s.g.r1
  | .r2 => s.g.r2
  | .r3 => s.g.r3
  | .r4 => s.g.r4
  | .r5 => s.g.r5
  | .r6 => s.g.r6
  | .r7 => s.g.r7
  | .r8 => (s.bank m).r8
  | .r9 => (s.bank m).r9
  | .r10 => (s.bank m).r10
  | .r11 => (s.bank m).r11
  | .r12 => (s.bank m).r12
  | .r13 => (s.bank m).r13
  | .lr => (s.bank m).lr
  | .pc => s.pc + s.cfg.pcBias

/-- Writes register `r` as mode `m` sees it (R15, R16); r15 is `pc <- v` (R20). -/
def State.writeIn (s : State) (m : Mode) (r : Reg) (v : Word) : State :=
  match r with
  | .r0 => { s with g := { s.g with r0 := v } }
  | .r1 => { s with g := { s.g with r1 := v } }
  | .r2 => { s with g := { s.g with r2 := v } }
  | .r3 => { s with g := { s.g with r3 := v } }
  | .r4 => { s with g := { s.g with r4 := v } }
  | .r5 => { s with g := { s.g with r5 := v } }
  | .r6 => { s with g := { s.g with r6 := v } }
  | .r7 => { s with g := { s.g with r7 := v } }
  | .r8 => s.setBank m { s.bank m with r8 := v }
  | .r9 => s.setBank m { s.bank m with r9 := v }
  | .r10 => s.setBank m { s.bank m with r10 := v }
  | .r11 => s.setBank m { s.bank m with r11 := v }
  | .r12 => s.setBank m { s.bank m with r12 := v }
  | .r13 => s.setBank m { s.bank m with r13 := v }
  | .lr => s.setBank m { s.bank m with lr := v }
  | .pc => { s with pc := v }

/-- `x[r]` (R14). -/
def State.readReg (s : State) (r : Reg) : Word := s.readIn s.mode r

/-- `x[r] <- v` (R15). -/
def State.writeReg (s : State) (r : Reg) (v : Word) : State := s.writeIn s.mode r v

/-- `pc <- A + 4` (R19). -/
def State.advance (s : State) : State := { s with pc := s.pc + 4 }

/-- `pc <- target`. -/
def State.setPc (s : State) (target : Word) : State := { s with pc := target }

/-- The end of an instruction that writes Rd: `x[rd] <- v`, and `pc <- A + 4` unless rd is pc (R19, R20). -/
def State.finish (s : State) (rd : Reg) (v : Word) : State := s.advance.writeReg rd v

/-! ### Registers by explicit bank (R16) -/

/-- One more free value drawn. -/
def State.drawOne (s : State) : State := { s with draws := s.draws + 1 }

/-- `xb[k][i]` as a source (R16, R113): the value and the state after the read. The reserved bits of `flags` and `mcr` read as a free value (R26, R33, log 14). -/
def State.readBanked (s : State) (k : Bank) (r : Reg) : Except Fault (Word × State) :=
  match k with
  | .reserved => .error .reservedBank
  | .supervisor => .ok (s.readIn .sup r, s)
  | .interrupt => .ok (s.readIn .irq r, s)
  | .bank3 =>
    match r with
    | .r0 => .ok (merge nzcvMask (Config.anyWord s.draws) s.flags, s.drawOne)
    | .r1 => .ok (merge mcrNamedMask (Config.anyWord s.draws) s.mcr, s.drawOne)
    | _ => .error .reservedBank3Register

/-- `flags <- v`: only bits 11:8 count (R26, R114). -/
def State.writeFlags (s : State) (v : Word) : State :=
  { s with flags := merge nzcvMask s.flags v }

/-- `mcr <- v` in every named field (R33, R114). -/
def State.writeMcr (s : State) (v : Word) : State :=
  { s with mcr := merge mcrNamedMask s.mcr v }

/-- `xb[k][i] <- v` (R16, R114). -/
def State.writeBanked (s : State) (k : Bank) (r : Reg) (v : Word) : Except Fault State :=
  match k with
  | .reserved => .error .reservedBank
  | .supervisor => .ok (s.writeIn .sup r v)
  | .interrupt => .ok (s.writeIn .irq r v)
  | .bank3 =>
    match r with
    | .r0 => .ok (s.writeFlags v)
    | .r1 => .ok (s.writeMcr v)
    | _ => .error .reservedBank3Register

/-! ### Memory -/

/-- An address that is a multiple of 4. -/
def aligned (a : Word) : Bool := a.extractLsb' 0 2 == 0

/-- What a device at `a` answers: the environment's next answer, or a free value once the listed ones are used up (R44, R49, log 11). -/
def State.deviceAnswer (s : State) : Word :=
  match s.devIn with
  | v :: _ => v
  | [] => Config.anyWord s.draws

/-- A device read: the answer is used up and the access recorded (R49, R53). -/
def State.deviceRead (s : State) (a : Word) : State :=
  match s.devIn with
  | v :: rest => { s with devIn := rest, devLog := s.devLog ++ [.read a v] }
  | [] =>
    { s with draws := s.draws + 1, devLog := s.devLog ++ [.read a (Config.anyWord s.draws)] }

/-- A device write: `v` is handed to the environment (R45, R49). -/
def State.deviceWrite (s : State) (a v : Word) : State :=
  { s with devLog := s.devLog ++ [.write a v] }

/-- `MemRead(a, 4)` at an aligned address (R44, R52): the word and the state after the read. -/
def State.memRead (s : State) (a : Word) : Except Fault (Word × State) :=
  match kindAt s.cfg.memMap a with
  | .ram => .ok (Memory.word s.cfg.endian s.mem a.toNat, s)
  | .device => .ok (s.deviceAnswer, s.deviceRead a)
  | .nothing => .error .unmappedAccess

/-- `MemWrite(a, 4, v)` at an aligned address (R45, R52). -/
def State.memWrite (s : State) (a v : Word) : Except Fault State :=
  match kindAt s.cfg.memMap a with
  | .ram => .ok { s with mem := Memory.setWord s.cfg.endian s.mem a.toNat v }
  | .device => .ok (s.deviceWrite a v)
  | .nothing => .error .unmappedAccess

/-- The read of LDR (R46, R100). -/
def State.loadData (s : State) (a : Word) : Except Fault (Word × State) :=
  if aligned a then s.memRead a else .error .unalignedData

/-- The write of STR (R46, R100). -/
def State.storeData (s : State) (a v : Word) : Except Fault State :=
  if aligned a then s.memWrite a v else .error .unalignedData

/-- The fetch of an instruction word (R47). -/
def State.fetch (s : State) : Except Fault (Word × State) :=
  if aligned s.pc then s.memRead s.pc else .error .unalignedFetch

/-! ### Traps -/

/-- The bits of `mcr` that trap entry writes: F (11:8), V (7:3), S (1), I (0) (R186). -/
def trapMask : Word := 0x00000FFB

/-- Trap entry, `raise Trap(v, ret)` (R186): lr_i saves the return address, MCR.F the flags, MCR.V the vector number; S and I become 0; pc is `VectorAddr(v)`. Nothing else changes. There is no return instruction beside it: return is the software sequence of R190 over the banked MOVs (`trapReturn` in Safety.lean). -/
def State.trapEntry (s : State) (v : VecNum) (ret : Word) : State :=
  { s with
    bankI := { s.bankI with lr := ret }
    mcr := merge trapMask s.mcr ((s.flags &&& nzcvMask) ||| (v.setWidth 32 <<< 3))
    pc := vectorAddr s.cfg.vectors v }

/-! ### Ends of instructions that more than one form shares -/

/-- An arithmetic result: flags, then Rd and pc (R123). -/
def arithResult (s : State) (rd : Reg) (x : Word × Nzcv) : Result :=
  .next ((s.setNzcv x.2).finish rd x.1)

/-- A logical result: flags by R140, then Rd and pc (R149). -/
def logicResult (s : State) (rd : Reg) (r : Word) : Result :=
  .next ((s.setLogicFlags r).finish rd r)

/-- A load into Rd from effective address `ea` (R100). -/
def loadInto (s : State) (rd : Reg) (ea : Word) : Result :=
  match s.loadData ea with
  | .ok (v, t) => .next (t.finish rd v)
  | .error f => .fault f

/-- A store of Rd at effective address `ea` (R100); Rd is read before anything is written. -/
def storeFrom (s : State) (rd : Reg) (ea : Word) : Result :=
  match s.storeData ea (s.readReg rd) with
  | .ok t => .next t.advance
  | .error f => .fault f

end Sys2Proof.Machine
end

