-- ==== Sys2Proof/Machine/Operands.lean ====
section
/-! DEFINITION. Operands: the second operand of an I-type and of an R-type form (R64, R68), the effective addresses (R100), and the branch target (R161). -/

namespace Sys2Proof.Machine

/-- The I-type immediate, sign-extended (R64). -/
def immOperand (imm : Half) : Word := imm.signExtend 32

/-- `v` shifted by `k` places in direction `d` (R68). -/
def shiftBy (d : ShiftDir) (v : Word) (k : Nat) : Word :=
  match d with
  | .shl => v <<< k
  | .shr => v >>> k
  | .srx => v.sshiftRight k
  | .ror => v.rotateRight k

/-- `sh(Rn)`, Rn read through the current view (R68). -/
def State.shifted (s : State) (op2 : Shifted) : Word :=
  shiftBy op2.dir (s.readReg op2.rn) op2.sh.toNat

/-- The absolute address `imm` (R100). -/
def eaAbsolute (imm : Half) : Word := immOperand imm

/-- `Rm + imm`, modulo 2^32 (R42, R100). -/
def State.eaDisplaced (s : State) (rm : Reg) (imm : Half) : Word :=
  s.readReg rm + immOperand imm

/-- `Rm + sh(Rn)`, modulo 2^32 (R42, R100). -/
def State.eaIndexed (s : State) (rm : Reg) (op2 : Shifted) : Word :=
  s.readReg rm + s.shifted op2

/-- `A + PC_BIAS + sext_32(imm16)` (R161). -/
def State.branchTarget (s : State) (imm : Half) : Word :=
  s.pc + s.cfg.pcBias + immOperand imm

end Sys2Proof.Machine
end

