-- ==== Sys2Proof/Machine/Arith.lean ====
section
/-! DEFINITION. Arith: ADD, ADDC, SUB, SUBC, RSUB, RSUBC (`42_arithmetic.md`, common shape R123). -/

namespace Sys2Proof.Machine

/-- ADD, immediate: `Rd <- Rm + imm` (R124). -/
def execAddI (rd rm : Reg) (imm : Half) (s : State) : Result :=
  arithResult s rd (addC (s.readReg rm) (immOperand imm) false)

/-- ADD, register: `Rd <- Rm + sh(Rn)` (R125). -/
def execAddR (rd rm : Reg) (op2 : Shifted) (s : State) : Result :=
  arithResult s rd (addC (s.readReg rm) (s.shifted op2) false)

/-- ADDC, immediate: `Rd <- Rm + imm + C` (R126). -/
def execAddcI (rd rm : Reg) (imm : Half) (s : State) : Result :=
  arithResult s rd (addC (s.readReg rm) (immOperand imm) s.nzcv.c)

/-- ADDC, register: `Rd <- Rm + sh(Rn) + C` (R127). -/
def execAddcR (rd rm : Reg) (op2 : Shifted) (s : State) : Result :=
  arithResult s rd (addC (s.readReg rm) (s.shifted op2) s.nzcv.c)

/-- SUB, immediate: `Rd <- Rm - imm` (R128). -/
def execSubI (rd rm : Reg) (imm : Half) (s : State) : Result :=
  arithResult s rd (subB s.cfg.subCOut (s.readReg rm) (immOperand imm) false)

/-- SUB, register: `Rd <- Rm - sh(Rn)` (R129). -/
def execSubR (rd rm : Reg) (op2 : Shifted) (s : State) : Result :=
  arithResult s rd (subB s.cfg.subCOut (s.readReg rm) (s.shifted op2) false)

/-- SUBC, immediate: `Rd <- Rm - imm - C` (R130). -/
def execSubcI (rd rm : Reg) (imm : Half) (s : State) : Result :=
  arithResult s rd (subB s.cfg.subCOut (s.readReg rm) (immOperand imm) s.nzcv.c)

/-- SUBC, register: `Rd <- Rm - sh(Rn) - C` (R131). -/
def execSubcR (rd rm : Reg) (op2 : Shifted) (s : State) : Result :=
  arithResult s rd (subB s.cfg.subCOut (s.readReg rm) (s.shifted op2) s.nzcv.c)

/-- RSUB, immediate: `Rd <- imm - Rm` (R132). -/
def execRsubI (rd rm : Reg) (imm : Half) (s : State) : Result :=
  arithResult s rd (subB s.cfg.subCOut (immOperand imm) (s.readReg rm) false)

/-- RSUB, register: `Rd <- sh(Rn) - Rm` (R133). -/
def execRsubR (rd rm : Reg) (op2 : Shifted) (s : State) : Result :=
  arithResult s rd (subB s.cfg.subCOut (s.shifted op2) (s.readReg rm) false)

/-- RSUBC, immediate: `Rd <- imm - Rm - C` (R134). -/
def execRsubcI (rd rm : Reg) (imm : Half) (s : State) : Result :=
  arithResult s rd (subB s.cfg.subCOut (immOperand imm) (s.readReg rm) s.nzcv.c)

/-- RSUBC, register: `Rd <- sh(Rn) - Rm - C` (R135). -/
def execRsubcR (rd rm : Reg) (op2 : Shifted) (s : State) : Result :=
  arithResult s rd (subB s.cfg.subCOut (s.shifted op2) (s.readReg rm) s.nzcv.c)

end Sys2Proof.Machine
end

