-- ==== Sys2Proof/Machine/Branch.lean ====
section
/-! DEFINITION. Branch: B<c> and B<c>L (`45_branch.md`). A condition number that `COND` leaves out faults, whatever the flags (R162, R163). -/

namespace Sys2Proof.Machine

/-- B<c> (R162). -/
def execB (cond : BitVec 4) (imm : Half) (s : State) : Result :=
  match condOf s.cfg.cond cond with
  | none => .fault .reservedCondition
  | some k =>
    if condHolds s.cfg.subCOut k s.nzcv then .next (s.setPc (s.branchTarget imm))
    else .next s.advance

/-- B<c>L (R163): the current mode's lr gets A + 4 when the branch is taken. -/
def execBl (cond : BitVec 4) (imm : Half) (s : State) : Result :=
  match condOf s.cfg.cond cond with
  | none => .fault .reservedCondition
  | some k =>
    if condHolds s.cfg.subCOut k s.nzcv then
      .next ((s.writeReg .lr (s.pc + 4)).setPc (s.branchTarget imm))
    else .next s.advance

end Sys2Proof.Machine
end

