-- ==== Sys2Proof/Machine/Compare.lean ====
section
/-! DEFINITION. Compare: CMP and TST (`44_compare.md`): SUB and AND with the register write left out; `pc <- A + 4` always (R154). -/

namespace Sys2Proof.Machine

/-- CMP, immediate: `Rm - imm` (R150). -/
def execCmpI (rm : Reg) (imm : Half) (s : State) : Result :=
  .next (s.setNzcv (subB s.cfg.subCOut (s.readReg rm) (immOperand imm) false).2).advance

/-- CMP, register: `Rm - sh(Rn)` (R151). -/
def execCmpR (rm : Reg) (op2 : Shifted) (s : State) : Result :=
  .next (s.setNzcv (subB s.cfg.subCOut (s.readReg rm) (s.shifted op2) false).2).advance

/-- TST, immediate: `Rm & imm` (R152). -/
def execTstI (rm : Reg) (imm : Half) (s : State) : Result :=
  .next (s.setLogicFlags (s.readReg rm &&& immOperand imm)).advance

/-- TST, register: `Rm & sh(Rn)` (R153). -/
def execTstR (rm : Reg) (op2 : Shifted) (s : State) : Result :=
  .next (s.setLogicFlags (s.readReg rm &&& s.shifted op2)).advance

end Sys2Proof.Machine
end

