-- ==== Sys2Proof/Machine/LoadStore.lean ====
section
/-! DEFINITION. LoadStore: LDR and STR (`40_load_store.md`). -/

namespace Sys2Proof.Machine

/-- LDR, absolute (R101). -/
def execLdrA (rd : Reg) (imm : Half) (s : State) : Result :=
  loadInto s rd (eaAbsolute imm)

/-- LDR, base plus displacement (R102). -/
def execLdrI (rd rm : Reg) (imm : Half) (s : State) : Result :=
  loadInto s rd (s.eaDisplaced rm imm)

/-- LDR, base plus shifted index (R103). -/
def execLdrR (rd rm : Reg) (op2 : Shifted) (s : State) : Result :=
  loadInto s rd (s.eaIndexed rm op2)

/-- STR, absolute (R104). -/
def execStrA (rd : Reg) (imm : Half) (s : State) : Result :=
  storeFrom s rd (eaAbsolute imm)

/-- STR, base plus displacement (R105). -/
def execStrI (rd rm : Reg) (imm : Half) (s : State) : Result :=
  storeFrom s rd (s.eaDisplaced rm imm)

/-- STR, base plus shifted index (R106). -/
def execStrR (rd rm : Reg) (op2 : Shifted) (s : State) : Result :=
  storeFrom s rd (s.eaIndexed rm op2)

end Sys2Proof.Machine
end

