-- ==== Sys2Proof/Machine/Logic.lean ====
section
/-! DEFINITION. Logic: AND, BIC, OR, XOR (`43_logic.md`, common shape R149). The immediate is sign-extended (R64). -/

namespace Sys2Proof.Machine

/-- AND, immediate: `Rd <- Rm & imm` (R141). -/
def execAndI (rd rm : Reg) (imm : Half) (s : State) : Result :=
  logicResult s rd (s.readReg rm &&& immOperand imm)

/-- AND, register: `Rd <- Rm & sh(Rn)` (R142). -/
def execAndR (rd rm : Reg) (op2 : Shifted) (s : State) : Result :=
  logicResult s rd (s.readReg rm &&& s.shifted op2)

/-- BIC, bit clear, immediate: `Rd <- Rm & ~imm` (R143). -/
def execBicI (rd rm : Reg) (imm : Half) (s : State) : Result :=
  logicResult s rd (s.readReg rm &&& ~~~immOperand imm)

/-- BIC, bit clear, register: `Rd <- Rm & ~sh(Rn)` (R144). -/
def execBicR (rd rm : Reg) (op2 : Shifted) (s : State) : Result :=
  logicResult s rd (s.readReg rm &&& ~~~s.shifted op2)

/-- OR, immediate: `Rd <- Rm | imm` (R145). -/
def execOrI (rd rm : Reg) (imm : Half) (s : State) : Result :=
  logicResult s rd (s.readReg rm ||| immOperand imm)

/-- OR, register: `Rd <- Rm | sh(Rn)` (R146). -/
def execOrR (rd rm : Reg) (op2 : Shifted) (s : State) : Result :=
  logicResult s rd (s.readReg rm ||| s.shifted op2)

/-- XOR, immediate: `Rd <- Rm ^ imm` (R147). -/
def execXorI (rd rm : Reg) (imm : Half) (s : State) : Result :=
  logicResult s rd (s.readReg rm ^^^ immOperand imm)

/-- XOR, register: `Rd <- Rm ^ sh(Rn)` (R148). -/
def execXorR (rd rm : Reg) (op2 : Shifted) (s : State) : Result :=
  logicResult s rd (s.readReg rm ^^^ s.shifted op2)

end Sys2Proof.Machine
end

