-- ==== Sys2Proof/Machine/Move.lean ====
section
/-! DEFINITION. Move: MOVT and the four MOV forms (`41_move.md`). None writes N, Z, C or V as a result (R115). -/

namespace Sys2Proof.Machine

/-- MOV, immediate (R111). -/
def execMovI (rd : Reg) (imm : Half) (s : State) : Result :=
  .next (s.finish rd (immOperand imm))

/-- MOV, shifted register (R112). -/
def execMovR (rd : Reg) (op2 : Shifted) (s : State) : Result :=
  .next (s.finish rd (s.shifted op2))

/-- MOVT (R110): bits 31:16 replaced by the raw immediate, bits 15:0 kept. -/
def execMovtI (rd : Reg) (imm : Half) (s : State) : Result :=
  .next (s.finish rd (imm ++ (s.readReg rd).extractLsb' 0 16))

/-- MOV from a banked register (R113). -/
def execMovRb (rd : Reg) (bank : Bank) (rm : Reg) (s : State) : Result :=
  match s.readBanked bank rm with
  | .ok (v, t) => .next (t.finish rd v)
  | .error f => .fault f

/-- MOV to a banked register (R114): `pc <- A + 4` unless the destination is pc. -/
def execMovWb (bank : Bank) (rd rm : Reg) (s : State) : Result :=
  match s.advance.writeBanked bank rd (s.readReg rm) with
  | .ok t => .next t
  | .error f => .fault f

end Sys2Proof.Machine
end

