-- ==== Sys2Proof/Machine/System.lean ====
section
/-! DEFINITION. System: INT (`46_system.md`). -/

namespace Sys2Proof.Machine

/-- INT (R170): trap entry with vector `imm16[4:0]` and return address A + 4 when I = 1; with I = 0 what `INT_WHEN_MASKED` says (log 16). -/
def execInt (imm : Half) (s : State) : Result :=
  if imm.extractLsb' 5 11 ≠ 0 then .fault .reservedIntVector
  else if s.intEnabled then .next (s.trapEntry (imm.extractLsb' 0 5) (s.pc + 4))
  else
    match s.cfg.intWhenMasked with
    | .refuse => .refused .maskedInt
    | .trap => .next (s.trapEntry (imm.extractLsb' 0 5) (s.pc + 4))
    | .nop => .next s.advance
    | .trapOrNop =>
      .next (if Config.maskedIntTraps then s.trapEntry (imm.extractLsb' 0 5) (s.pc + 4)
        else s.advance)

end Sys2Proof.Machine
end

