-- ==== Sys2Proof/Machine/Dispatch.lean ====
section
/-! DEFINITION. Dispatch: one meaning per instruction form. -/

namespace Sys2Proof.Machine

def exec (i : Instr) (s : State) : Host.Outcome State Fault Refusal :=
  match i with
  | .ldrA rd imm => Sys2Proof.Machine.execLdrA rd imm s
  | .ldrI rd rm imm => Sys2Proof.Machine.execLdrI rd rm imm s
  | .ldrR rd rm op2 => Sys2Proof.Machine.execLdrR rd rm op2 s
  | .strA rd imm => Sys2Proof.Machine.execStrA rd imm s
  | .strI rd rm imm => Sys2Proof.Machine.execStrI rd rm imm s
  | .strR rd rm op2 => Sys2Proof.Machine.execStrR rd rm op2 s
  | .movI rd imm => Sys2Proof.Machine.execMovI rd imm s
  | .movR rd op2 => Sys2Proof.Machine.execMovR rd op2 s
  | .movtI rd imm => Sys2Proof.Machine.execMovtI rd imm s
  | .movRb rd bank rm => Sys2Proof.Machine.execMovRb rd bank rm s
  | .movWb bank rd rm => Sys2Proof.Machine.execMovWb bank rd rm s
  | .addI rd rm imm => Sys2Proof.Machine.execAddI rd rm imm s
  | .addR rd rm op2 => Sys2Proof.Machine.execAddR rd rm op2 s
  | .addcI rd rm imm => Sys2Proof.Machine.execAddcI rd rm imm s
  | .addcR rd rm op2 => Sys2Proof.Machine.execAddcR rd rm op2 s
  | .subI rd rm imm => Sys2Proof.Machine.execSubI rd rm imm s
  | .subR rd rm op2 => Sys2Proof.Machine.execSubR rd rm op2 s
  | .subcI rd rm imm => Sys2Proof.Machine.execSubcI rd rm imm s
  | .subcR rd rm op2 => Sys2Proof.Machine.execSubcR rd rm op2 s
  | .rsubI rd rm imm => Sys2Proof.Machine.execRsubI rd rm imm s
  | .rsubR rd rm op2 => Sys2Proof.Machine.execRsubR rd rm op2 s
  | .rsubcI rd rm imm => Sys2Proof.Machine.execRsubcI rd rm imm s
  | .rsubcR rd rm op2 => Sys2Proof.Machine.execRsubcR rd rm op2 s
  | .andI rd rm imm => Sys2Proof.Machine.execAndI rd rm imm s
  | .andR rd rm op2 => Sys2Proof.Machine.execAndR rd rm op2 s
  | .bicI rd rm imm => Sys2Proof.Machine.execBicI rd rm imm s
  | .bicR rd rm op2 => Sys2Proof.Machine.execBicR rd rm op2 s
  | .orI rd rm imm => Sys2Proof.Machine.execOrI rd rm imm s
  | .orR rd rm op2 => Sys2Proof.Machine.execOrR rd rm op2 s
  | .xorI rd rm imm => Sys2Proof.Machine.execXorI rd rm imm s
  | .xorR rd rm op2 => Sys2Proof.Machine.execXorR rd rm op2 s
  | .cmpI rm imm => Sys2Proof.Machine.execCmpI rm imm s
  | .cmpR rm op2 => Sys2Proof.Machine.execCmpR rm op2 s
  | .tstI rm imm => Sys2Proof.Machine.execTstI rm imm s
  | .tstR rm op2 => Sys2Proof.Machine.execTstR rm op2 s
  | .b cond imm => Sys2Proof.Machine.execB cond imm s
  | .bl cond imm => Sys2Proof.Machine.execBl cond imm s
  | .int imm => Sys2Proof.Machine.execInt imm s

end Sys2Proof.Machine
end

