-- ==== Sys2Proof/Machine/Cycle.lean ====
section
/-! DEFINITION. Cycle: one step of the core (R189, R195): debug refusal, then an accepted interrupt, else one instruction. -/

namespace Sys2Proof.Machine

/-- The answer a source gives at this boundary (R182). -/
def IrqSource.head (q : IrqSource) : Option VecNum :=
  match q with
  | .always a => a
  | .free n => Config.anyIrq n
  | .listed a _ => a

/-- The source at the next boundary (R182). -/
def IrqSource.tail (q : IrqSource) : IrqSource :=
  match q with
  | .always a => .always a
  | .free n => .free (n + 1)
  | .listed _ rest => rest

/-- The environment's answer at this boundary (R182, log 10). -/
def State.irqAnswer (s : State) : Option VecNum := s.irqIn.head

/-- The state with this boundary's answer used up: a request that is not accepted leaves no trace (R194). -/
def State.dropIrq (s : State) : State := { s with irqIn := s.irqIn.tail }

/-- The vector of the request accepted at this boundary, if any (R183). -/
def State.acceptedIrq (s : State) : Option VecNum :=
  if s.intEnabled then s.irqAnswer else none

/-- Fetches, decodes and executes the instruction at pc (R47, R75, R78). -/
def runInstr (s : State) : Result :=
  match s.fetch with
  | .error f => .fault f
  | .ok (w, t) =>
    match decode t.cfg.opc w with
    | .error _ => .fault .undefinedOpcode
    | .ok i => exec i t

/-- One step of the core (R195). -/
def cycle (s : State) : Result :=
  if s.debugOn then .refused .debugMode
  else
    match s.acceptedIrq with
    | some v => .next (s.dropIrq.trapEntry v s.pc)
    | none => runInstr s.dropIrq

end Sys2Proof.Machine
end

