-- ==== Sys2Proof/Machine/Step.lean ====
section
/-! DEFINITION. Step: the machine's step, and the placing of one instruction where it fetches. -/

namespace Sys2Proof.Machine

/-- One step (R195). -/
def step (s : State) : Host.Outcome State Fault Refusal := cycle s

/-- `s` with the instruction whose bits are `w` (those from `nbits` up being 0) stored as the word at pc, where step fetches (log 21). -/
def State.withFetchWord (s : State) (nbits w : Nat) : State :=
  { s with
    mem := Memory.setWord s.cfg.endian s.mem s.pc.toNat (BitVec.ofNat 32 (w % 2 ^ nbits)) }

end Sys2Proof.Machine
end

