-- ==== Sys2Proof/Safety.lean ====
section
/-! DEFINITION. Safety: the terms the claims use: what a rule says a sum, a difference, an effect is; what an instruction leaves alone; which step runs which instruction. -/

namespace Sys2Proof.Machine

/-! ### Flags as the rules define them -/

/-- R120: `r` and `f` are the result and flags of `a + b + cin`, computed in the integers. -/
def AddSpec (a b : Word) (cin : Bool) (r : Word) (f : Nzcv) : Prop :=
  r.toNat = (a.toNat + b.toNat + cin.toNat) % 2 ^ 32 ∧
  f.n = r.getLsbD 31 ∧
  (f.z = true ↔ r = 0) ∧
  (f.c = true ↔ 2 ^ 32 ≤ a.toNat + b.toNat + cin.toNat) ∧
  (f.v = true ↔ ¬(-2 ^ 31 ≤ a.toInt + b.toInt + cin.toNat ∧
    a.toInt + b.toInt + cin.toNat ≤ 2 ^ 31 - 1))

/-- R121: `r` and `f` are the result and flags of `a - b - bin`, computed in the integers; C is the borrow, or its complement when `SUB_C_OUT` is `not_borrow`. -/
def SubSpec (co : SubCOut) (a b : Word) (bin : Bool) (r : Word) (f : Nzcv) : Prop :=
  (r.toNat : Int) = ((a.toNat : Int) - b.toNat - bin.toNat) % 2 ^ 32 ∧
  f.n = r.getLsbD 31 ∧
  (f.z = true ↔ r = 0) ∧
  (f.c = true ↔ (match co with
    | .borrow => a.toNat < b.toNat + bin.toNat
    | .notBorrow => b.toNat + bin.toNat ≤ a.toNat)) ∧
  (f.v = true ↔ ¬(-2 ^ 31 ≤ a.toInt - b.toInt - bin.toNat ∧
    a.toInt - b.toInt - bin.toNat ≤ 2 ^ 31 - 1))

/-- R140: the flags `f` after a logical result `r` in a state whose flags were `before`: N and Z from the result; C and V as `LOGIC_CV` says, and nothing is said of them when it is `any`. -/
def LogicSpec (lcv : LogicCV) (before : Nzcv) (r : Word) (f : Nzcv) : Prop :=
  f.n = r.getLsbD 31 ∧
  (f.z = true ↔ r = 0) ∧
  (match lcv with
    | .any => True
    | .unchanged => f.c = before.c ∧ f.v = before.v
    | .cleared => f.c = false ∧ f.v = false)

/-! ### What an effect leaves alone -/

/-- The registers with a copy per mode: r8 to r13 and lr (R13). -/
def isBanked (r : Reg) : Bool :=
  match r with
  | .r8 | .r9 | .r10 | .r11 | .r12 | .r13 | .lr => true
  | _ => false

/-- Register `r` of mode `m` and register `r'` of mode `m'` are one register (R13). -/
def SameReg (m : Mode) (r : Reg) (m' : Mode) (r' : Reg) : Prop :=
  r = r' ∧ (isBanked r = true → m = m')

/-- Both copies of every general register and link register are kept. -/
def RegsKept (s t : State) : Prop :=
  ∀ m r, r ≠ .pc → t.readIn m r = s.readIn m r

/-- Every general register and link register, in both banks, is kept, but for register `r` of mode `m`. -/
def RegsKeptBut (m : Mode) (r : Reg) (s t : State) : Prop :=
  ∀ m' r', r' ≠ .pc → ¬SameReg m r m' r' → t.readIn m' r' = s.readIn m' r'

/-- Every byte of memory is kept. -/
def MemKept (s t : State) : Prop :=
  ∀ a, Memory.byte t.mem a = Memory.byte s.mem a

/-- Every byte of memory outside the word at `ea` is kept. -/
def MemKeptOutside (ea : Word) (s t : State) : Prop :=
  ∀ a, a < ea.toNat ∨ ea.toNat + 4 ≤ a → Memory.byte t.mem a = Memory.byte s.mem a

/-- The parameters, the environment's answers and the record of device accesses are kept. -/
def EnvKept (s t : State) : Prop :=
  t.cfg = s.cfg ∧ t.irqIn = s.irqIn ∧ t.devIn = s.devIn ∧ t.devLog = s.devLog

/-- The four flags become `f`; the other bits of `flags` are kept. -/
def FlagsBecome (s t : State) (f : Nzcv) : Prop :=
  t.nzcv = f ∧ t.flags &&& ~~~nzcvMask = s.flags &&& ~~~nzcvMask

/-- Register `rd` of mode `m` gets `v`, or pc does when rd is pc (R15, R20); otherwise pc is A + 4 (R19); no other register, no field of `mcr`, no byte of memory and nothing of the environment changes. Flags are left to a clause of their own. -/
def WritesReg (m : Mode) (rd : Reg) (v : Word) (s t : State) : Prop :=
  t.pc = (if rd = .pc then v else s.pc + 4) ∧
  (rd ≠ .pc → t.readIn m rd = v) ∧
  RegsKeptBut m rd s t ∧ t.mcr = s.mcr ∧ MemKept s t ∧ EnvKept s t

/-- pc becomes `target`; no other register, no flag, no field of `mcr`, no byte of memory and nothing of the environment changes. -/
def OnlyPc (target : Word) (s t : State) : Prop :=
  t.pc = target ∧ RegsKept s t ∧ t.flags = s.flags ∧ t.mcr = s.mcr ∧ MemKept s t ∧ EnvKept s t

/-! ### Loads and stores -/

/-- What `o`, the outcome of a load of rd from `ea` in state `s`, must be (R44, R46, R52, R100). -/
def LoadSpec (s : State) (rd : Reg) (ea : Word) (o : Result) : Prop :=
  (ea.toNat % 4 ≠ 0 → o = .fault .unalignedData) ∧
  (ea.toNat % 4 = 0 → kindAt s.cfg.memMap ea = .nothing → o = .fault .unmappedAccess) ∧
  (ea.toNat % 4 = 0 → kindAt s.cfg.memMap ea = .ram →
    ∃ t, o = .next t ∧ t.flags = s.flags ∧
      WritesReg s.mode rd (Memory.word s.cfg.endian s.mem ea.toNat) s t) ∧
  (ea.toNat % 4 = 0 → kindAt s.cfg.memMap ea = .device →
    ∃ t v, o = .next t ∧ t.flags = s.flags ∧ t.mcr = s.mcr ∧ MemKept s t ∧
      (∀ x rest, s.devIn = x :: rest → v = x ∧ t.devIn = rest) ∧
      t.devLog = s.devLog ++ [.read ea v] ∧ t.irqIn = s.irqIn ∧ t.cfg = s.cfg ∧
      t.pc = (if rd = .pc then v else s.pc + 4) ∧
      (rd ≠ .pc → t.readReg rd = v) ∧ RegsKeptBut s.mode rd s t)

/-- What `o`, the outcome of a store of rd at `ea` in state `s`, must be (R45, R46, R52, R100). -/
def StoreSpec (s : State) (rd : Reg) (ea : Word) (o : Result) : Prop :=
  (ea.toNat % 4 ≠ 0 → o = .fault .unalignedData) ∧
  (ea.toNat % 4 = 0 → kindAt s.cfg.memMap ea = .nothing → o = .fault .unmappedAccess) ∧
  (ea.toNat % 4 = 0 → kindAt s.cfg.memMap ea = .ram →
    ∃ t, o = .next t ∧
      Memory.word s.cfg.endian t.mem ea.toNat = s.readReg rd ∧ MemKeptOutside ea s t ∧
      t.pc = s.pc + 4 ∧ RegsKept s t ∧ t.flags = s.flags ∧ t.mcr = s.mcr ∧ EnvKept s t) ∧
  (ea.toNat % 4 = 0 → kindAt s.cfg.memMap ea = .device →
    ∃ t, o = .next t ∧ MemKept s t ∧ t.devLog = s.devLog ++ [.write ea (s.readReg rd)] ∧
      t.devIn = s.devIn ∧ t.irqIn = s.irqIn ∧ t.cfg = s.cfg ∧
      t.pc = s.pc + 4 ∧ RegsKept s t ∧ t.flags = s.flags ∧ t.mcr = s.mcr)

/-- The address a store form stores at (R104 to R106). -/
def storeAddress (s : State) : Instr → Option Word
  | .strA _ imm => some (eaAbsolute imm)
  | .strI _ rm imm => some (s.eaDisplaced rm imm)
  | .strR _ rm op2 => some (s.eaIndexed rm op2)
  | _ => none

/-! ### Traps -/

/-- Trap entry with vector `v` and return address `ret`, field by field (R186). -/
def TrapSpec (v : VecNum) (ret : Word) (s t : State) : Prop :=
  t.readIn .irq .lr = ret ∧
  t.savedFlags = s.nzcv ∧ t.savedVector = v ∧ t.mode = .irq ∧ t.intEnabled = false ∧
  t.pc = vectorAddr s.cfg.vectors v ∧
  t.mcr &&& 0xFFFFF004 = s.mcr &&& 0xFFFFF004 ∧
  t.flags = s.flags ∧ RegsKeptBut .irq .lr s t ∧ MemKept s t

/-- The software return sequence of R190 for an interrupt taken from supervisor mode, r8 and r9 naming r8_i and r9_i. -/
def trapReturn : List Instr :=
  [.movRb .r8 .bank3 .r1, .orI .r9 .r8 3, .movWb .bank3 .r0 .r8, .movWb .bank3 .r1 .r9,
   .movRb .pc .interrupt .lr]

/-- The meanings of a list of instructions, one after the other, with no interrupt between them. -/
def execAll : List Instr → State → Result
  | [], s => .next s
  | i :: rest, s =>
    match exec i s with
    | .next t => execAll rest t
    | .fault f => .fault f
    | .refused r => .refused r

/-! ### Steps -/

/-- The step from `s` runs instruction `i`, in state `u`: debug is off, no interrupt is accepted, and the word fetched decodes to `i`. `u` is `s` with this boundary's interrupt answer used up, and the device's answer too if pc is in a device. -/
def Runs (s : State) (i : Instr) (u : State) : Prop :=
  s.debugOn = false ∧ s.acceptedIrq = none ∧
    ∃ w, s.dropIrq.fetch = .ok (w, u) ∧ decode u.cfg.opc w = .ok i

/-- The forms that write N, Z, C, V, and the MOV that writes `flags` (R24). -/
def writesFlags : Instr → Bool
  | .addI .. | .addR .. | .addcI .. | .addcR .. | .subI .. | .subR .. | .subcI .. | .subcR .. => true
  | .rsubI .. | .rsubR .. | .rsubcI .. | .rsubcR .. => true
  | .andI .. | .andR .. | .bicI .. | .bicR .. | .orI .. | .orR .. | .xorI .. | .xorR .. => true
  | .cmpI .. | .cmpR .. | .tstI .. | .tstR .. => true
  | .movWb bank rd _ => decide (bank = .bank3) && decide (rd = .r0)
  | _ => false

/-- The forms whose effect depends on the mode only through the register view: all but the banked MOVs and INT (R181). -/
def viewOnly : Instr → Bool
  | .movRb .. | .movWb .. | .int .. => false
  | _ => true

/-- The same machine in the other mode, with the two banks exchanged. -/
def swapModes (s : State) : State :=
  { s with bankS := s.bankI, bankI := s.bankS, mcr := s.mcr ^^^ 2 }

/-- The R-type forms of the opcode table (R65, R72). -/
def isRType : Form → Bool
  | .ldrR | .strR | .movR | .movRb | .movWb => true
  | .addR | .addcR | .subR | .subcR | .rsubR | .rsubcR => true
  | .andR | .bicR | .orR | .xorR | .cmpR | .tstR => true
  | _ => false

/-- A function applied to the next state of an outcome. -/
def mapNext (f : State → State) : Result → Result
  | .next s => .next (f s)
  | .fault r => .fault r
  | .refused r => .refused r

/-- The end-of-run marker stands at pc: the word there, in RAM, decodes to `B 0` (R5, R216). -/
def atHalt (s : State) : Prop :=
  s.pc.toNat % 4 = 0 ∧ kindAt s.cfg.memMap s.pc = .ram ∧
    decode s.cfg.opc (Memory.word s.cfg.endian s.mem s.pc.toNat) = .ok aliasHalt

/-- The memory has its canonical form: the invariant of every step. -/
def Canonical (s : State) : Prop := Memory.wf s.mem = true

end Sys2Proof.Machine
end

