-- ==== Sys2Proof/Certificates/Slice0/Obligations.lean ====
section
/-! DEFINITION. Obligations: the statements about the machine that the provers settle. Each docstring names the rule it formalises; OBLIGATIONS.json holds the same text. -/

open Sys2Proof Sys2Proof.Machine

/-- For every opcode map that gives each of the 38 forms an opcode byte and no two forms the same one, and for every instruction with every operand at every value, decoding its encoding gives the instruction back. (30_encoding.md R75, 30_encoding.md R72) -/
def Obligations.DecodeEncodeRoundTrip : Prop :=
  ∀ (opc : OpcodeMap) (i : Instr), lawfulOpc opc = true → decode opc (encode opc i) = .ok i

/-- Under the default opcode map, if a word decodes to an instruction i, then the encoding of i has the same value as the word on every bit that the form of i uses, and 0 on every bit that the form ignores. (30_encoding.md R73, 30_encoding.md R75, 30_encoding.md R76) -/
def Obligations.DecodedWordReencodes : Prop :=
  ∀ (w : Word) (i : Instr), decode standardOpc w = .ok i →
    encode standardOpc i = w &&& usedBits i.form

/-- For the I-type word opcode << 24 | rd << 20 | rm << 16 | imm16 and the R-type word opcode << 24 | rd << 20 | rm << 16 | rn << 12 | sh << 7 | dir << 5 | bank << 3 | reserved, each field accessor reads back its field, whatever the reserved bits hold, and the assembled words are these. (R62, R63, R65) -/
def Obligations.WordFieldLayout : Prop :=
  (∀ (op : Byte) (rd rm : BitVec 4) (imm : Half) (w : Word),
    w = op.setWidth 32 <<< 24 ||| rd.setWidth 32 <<< 20 ||| rm.setWidth 32 <<< 16 |||
      imm.setWidth 32 →
    iType op rd rm imm = w ∧
      opcodeField w = op ∧ rdField w = rd ∧ rmField w = rm ∧ imm16Field w = imm) ∧
  (∀ (op : Byte) (rd rm rn : BitVec 4) (sh : BitVec 5) (dir bank : BitVec 2) (res : BitVec 3)
      (w : Word),
    w = op.setWidth 32 <<< 24 ||| rd.setWidth 32 <<< 20 ||| rm.setWidth 32 <<< 16 |||
      rn.setWidth 32 <<< 12 ||| sh.setWidth 32 <<< 7 ||| dir.setWidth 32 <<< 5 |||
      bank.setWidth 32 <<< 3 ||| res.setWidth 32 →
    (res = 0 → rType op rd rm rn sh dir bank = w) ∧
      opcodeField w = op ∧ rdField w = rd ∧ rmField w = rm ∧ rnField w = rn ∧ shField w = sh ∧
      dirField w = dir ∧ bankField w = bank)

/-- The default map is lawful: each of the 38 forms has an opcode byte, and no two share one. Bit 0 of the byte is 1 exactly for the R-type forms. The numbers are the spec's own choice (D1), not the source's. (30_encoding.md R70, 30_encoding.md R71, 30_encoding.md R72) -/
def Obligations.StandardOpcodesDistinct : Prop :=
  lawfulOpc standardOpc = true ∧
    ∀ f : Form, (opcodeOf standardOpc f).getLsbD 0 = isRType f

/-- Under any opcode map: if the opcode byte of w names form f and w and w2 agree on the bits f uses (its opcode among them), they decode alike. (30_encoding.md R73, 30_encoding.md R75, 30_encoding.md R76) -/
def Obligations.IgnoredFieldsDoNotMatter : Prop :=
  ∀ (opc : OpcodeMap) (f : Form) (w w2 : Word), formOf opc (opcodeField w) = some f →
    w &&& usedBits f = w2 &&& usedBits f → decode opc w2 = decode opc w

/-- One word of every family, as the spec prints it, decodes to the instruction the spec names: LDR, STR, MOV, MOVT, banked MOV, ADD, AND, CMP, TST, BEQ, BL, INT, and the aliases NOP, RET, HALT. (30_encoding.md section 4, 95_test_vectors.md section 2) -/
def Obligations.SpecWordsDecode : Prop :=
  decode standardOpc 0x03234100 = .ok (.ldrR .r2 .r3 { rn := .r4, sh := 2, dir := .shl }) ∧
  decode standardOpc 0x2223FFFC = .ok (.strI .r2 .r3 0xFFFC) ∧
  decode standardOpc 0x4010FFFE = .ok (.movI .r1 0xFFFE) ∧
  decode standardOpc 0x42101234 = .ok (.movtI .r1 0x1234) ∧
  decode standardOpc 0x430E0010 = .ok (.movRb .r0 .interrupt .lr) ∧
  decode standardOpc 0x45D20010 = .ok (.movWb .interrupt .r13 .r2) ∧
  decode standardOpc 0x61123080 = .ok (.addR .r1 .r2 { rn := .r3, sh := 1, dir := .shl }) ∧
  decode standardOpc 0x81123460 = .ok (.andR .r1 .r2 { rn := .r3, sh := 8, dir := .ror }) ∧
  decode standardOpc 0xA0020005 = .ok (.cmpI .r2 5) ∧
  decode standardOpc 0xA3023FC0 = .ok (.tstR .r2 { rn := .r3, sh := 31, dir := .srx }) ∧
  decode standardOpc 0xC0000010 = .ok (.b 0 16) ∧
  decode standardOpc 0xC2E0FFF8 = .ok (.bl 14 0xFFF8) ∧
  decode standardOpc 0xE0000003 = .ok (.int 3) ∧
  decode standardOpc 0x41000000 = .ok aliasNop ∧
  decode standardOpc 0x41F0E000 = .ok aliasRet ∧
  decode standardOpc 0xC0E00000 = .ok aliasHalt

/-- For every 16-bit immediate, the 32-bit operand has the same value as a signed number, its low half is the immediate, and each of its bits 31 to 16 equals bit 15. (30_encoding.md R64) -/
def Obligations.ImmediateIsSignExtended : Prop :=
  ∀ imm : Half, (immOperand imm).toInt = imm.toInt ∧ (immOperand imm).extractLsb' 0 16 = imm ∧
    ∀ k, 16 ≤ k → k < 32 → (immOperand imm).getLsbD k = imm.getLsbD 15

/-- For Rn read through the current view with value v and amount k = 0..31: left gives u(v)*2^k mod 2^32, right gives floor(u(v)/2^k), sign-extended right gives floor(s(v)/2^k), rotate gives (v >>u k) | (v << (32-k)), and v itself for k = 0. (General knowledge supplied by the spec, D11.) (30_encoding.md R67, 30_encoding.md R68) -/
def Obligations.ShiftedOperandValue : Prop :=
  ∀ (s : State) (rn : Reg) (sh : BitVec 5),
    (s.shifted { rn := rn, sh := sh, dir := .shl }).toNat =
      (s.readReg rn).toNat * 2 ^ sh.toNat % 2 ^ 32 ∧
    (s.shifted { rn := rn, sh := sh, dir := .shr }).toNat = (s.readReg rn).toNat / 2 ^ sh.toNat ∧
    (s.shifted { rn := rn, sh := sh, dir := .srx }).toInt = (s.readReg rn).toInt / 2 ^ sh.toNat ∧
    s.shifted { rn := rn, sh := sh, dir := .ror } =
      (if sh = 0 then s.readReg rn
       else s.readReg rn >>> sh.toNat ||| s.readReg rn <<< (32 - sh.toNat))

/-- A write to a register is read back under the same number in the same mode, and in the other mode too exactly when the register is r0 to r7; it leaves every other register, and the other mode's copy of r8 to r13 and lr, alone. pc is one register: a write in either mode is the pc of both. (R13) -/
def Obligations.RegisterCopiesPerMode : Prop :=
  (∀ (s : State) (m m' : Mode) (r : Reg) (v : Word), r ≠ .pc →
    (isBanked r = false ∨ m = m' → (s.writeIn m r v).readIn m' r = v) ∧
    (isBanked r = true → m ≠ m' → (s.writeIn m r v).readIn m' r = s.readIn m' r) ∧
    (∀ r', r' ≠ .pc → r' ≠ r → (s.writeIn m r v).readIn m' r' = s.readIn m' r') ∧
    (s.writeIn m r v).pc = s.pc) ∧
  (∀ (s : State) (m m' : Mode) (v : Word),
    (s.writeIn m .pc v).pc = v ∧ (s.writeIn m .pc v).readIn m' .pc = v + s.cfg.pcBias ∧
      RegsKept s (s.writeIn m .pc v))

/-- For all a, b and carry-in: the result and N, Z, C, V are those of the integer sum (R120), and V is 1 exactly when a and b have one sign and the result the other. (Definitions the spec supplies from general knowledge, D8.) (42_arithmetic.md R120) -/
def Obligations.AdditionResultAndFlags : Prop :=
  ∀ (a b : Word) (cin : Bool), AddSpec a b cin (addC a b cin).1 (addC a b cin).2 ∧
    ((addC a b cin).2.v = true ↔
      a.getLsbD 31 = b.getLsbD 31 ∧ (addC a b cin).1.getLsbD 31 ≠ a.getLsbD 31)

/-- For all a, b and borrow-in, and for SUB_C_OUT borrow and not_borrow: the result and N, Z, C, V are those of the integer difference (R121), V is 1 exactly when a and b have different signs and the result not that of a, and the two conventions differ in C alone, which is inverted. (Decision D9.) (42_arithmetic.md R121) -/
def Obligations.SubtractionResultAndFlags : Prop :=
  ∀ (a b : Word) (bin : Bool),
    (∀ co, SubSpec co a b bin (subB co a b bin).1 (subB co a b bin).2 ∧
      ((subB co a b bin).2.v = true ↔
        a.getLsbD 31 ≠ b.getLsbD 31 ∧ (subB co a b bin).1.getLsbD 31 ≠ a.getLsbD 31)) ∧
    subB .notBorrow a b bin =
      ((subB .borrow a b bin).1,
        { (subB .borrow a b bin).2 with c := !(subB .borrow a b bin).2.c })

/-- Under the default COND, for every value of the flags: each of the numbers 0 to 14 tests the predicate of its row, CS, CC, HI and LS reading C inverted when SUB_C_OUT is not_borrow, and number 15 is reserved. (Decision D3.) (45_branch.md R160) -/
def Obligations.ConditionPredicates : Prop :=
  ∀ (co : SubCOut) (f : Nzcv) (c : Bool),
    c = (match co with
      | .borrow => f.c
      | .notBorrow => !f.c) →
    (condOf standardCond 0).map (fun k => condHolds co k f) = some (f.z) ∧
    (condOf standardCond 1).map (fun k => condHolds co k f) = some (!f.z) ∧
    (condOf standardCond 2).map (fun k => condHolds co k f) = some (c) ∧
    (condOf standardCond 3).map (fun k => condHolds co k f) = some (!c) ∧
    (condOf standardCond 4).map (fun k => condHolds co k f) = some (f.n) ∧
    (condOf standardCond 5).map (fun k => condHolds co k f) = some (!f.n) ∧
    (condOf standardCond 6).map (fun k => condHolds co k f) = some (f.v) ∧
    (condOf standardCond 7).map (fun k => condHolds co k f) = some (!f.v) ∧
    (condOf standardCond 8).map (fun k => condHolds co k f) = some (!c && !f.z) ∧
    (condOf standardCond 9).map (fun k => condHolds co k f) = some (c || f.z) ∧
    (condOf standardCond 10).map (fun k => condHolds co k f) = some (f.n == f.v) ∧
    (condOf standardCond 11).map (fun k => condHolds co k f) = some (f.n != f.v) ∧
    (condOf standardCond 12).map (fun k => condHolds co k f) = some (!f.z && (f.n == f.v)) ∧
    (condOf standardCond 13).map (fun k => condHolds co k f) = some (f.z || (f.n != f.v)) ∧
    (condOf standardCond 14).map (fun k => condHolds co k f) = some (true) ∧
    condOf standardCond 15 = none

/-- With the flags of SubB(a, b, 0), under either meaning of C: EQ and NE are equality, CS, CC, HI, LS the unsigned order, GE, LT, GT, LE the signed order, MI and PL the sign of the 32-bit difference, VS and VC whether the signed difference overflows. (45_branch.md R160, 42_arithmetic.md R121) -/
def Obligations.ConditionsCompareOperands : Prop :=
  ∀ (co : SubCOut) (a b : Word) (f : Nzcv), f = (subB co a b false).2 →
    (condHolds co .eq f = true ↔ a = b) ∧ (condHolds co .ne f = true ↔ a ≠ b) ∧
    (condHolds co .cs f = true ↔ a.toNat < b.toNat) ∧
    (condHolds co .cc f = true ↔ b.toNat ≤ a.toNat) ∧
    (condHolds co .hi f = true ↔ b.toNat < a.toNat) ∧
    (condHolds co .ls f = true ↔ a.toNat ≤ b.toNat) ∧
    (condHolds co .ge f = true ↔ b.toInt ≤ a.toInt) ∧
    (condHolds co .lt f = true ↔ a.toInt < b.toInt) ∧
    (condHolds co .gt f = true ↔ b.toInt < a.toInt) ∧
    (condHolds co .le f = true ↔ a.toInt ≤ b.toInt) ∧
    (condHolds co .mi f = true ↔ (a - b).toInt < 0) ∧
    (condHolds co .pl f = true ↔ 0 ≤ (a - b).toInt) ∧
    (condHolds co .vs f = true ↔ (a - b).toInt ≠ a.toInt - b.toInt) ∧
    (condHolds co .vc f = true ↔ (a - b).toInt = a.toInt - b.toInt)

/-- For every register, immediate and shifted operand, in every state, in both modes: ADD (both forms, with the opcode bytes of the default map) answers a next state in which Rd (or pc, when Rd is pc) is the result Rm + op2 and N, Z, C, V are those of the exact integer result; every other register of both banks, the rest of flags, mcr, every byte of memory and the environment are unchanged; pc is A + 4 unless Rd is pc. (R124, R125) -/
def Obligations.AddResult : Prop :=
  (∀ (rd rm : Reg) (imm : Half) (s : State),
    encode standardOpc (.addI rd rm imm) = iType 0x60 rd.number rm.number imm ∧
    ∃ r f t, exec (.addI rd rm imm) s = .next t ∧
      AddSpec (s.readReg rm) (imm.signExtend 32) false r f ∧
      WritesReg s.mode rd r s t ∧ FlagsBecome s t f) ∧
  (∀ (rd rm : Reg) (op2 : Shifted) (s : State),
    encode standardOpc (.addR rd rm op2) = rTypeShifted 0x61 rd.number rm.number op2 ∧
    ∃ r f t, exec (.addR rd rm op2) s = .next t ∧
      AddSpec (s.readReg rm) (s.shifted op2) false r f ∧
      WritesReg s.mode rd r s t ∧ FlagsBecome s t f)

/-- For every register, immediate and shifted operand, in every state, in both modes: ADDC (both forms, with the opcode bytes of the default map) answers a next state in which Rd (or pc, when Rd is pc) is the result Rm + op2 + C and N, Z, C, V are those of the exact integer result; every other register of both banks, the rest of flags, mcr, every byte of memory and the environment are unchanged; pc is A + 4 unless Rd is pc. (R126, R127) -/
def Obligations.AddcResult : Prop :=
  (∀ (rd rm : Reg) (imm : Half) (s : State),
    encode standardOpc (.addcI rd rm imm) = iType 0x62 rd.number rm.number imm ∧
    ∃ r f t, exec (.addcI rd rm imm) s = .next t ∧
      AddSpec (s.readReg rm) (imm.signExtend 32) s.nzcv.c r f ∧
      WritesReg s.mode rd r s t ∧ FlagsBecome s t f) ∧
  (∀ (rd rm : Reg) (op2 : Shifted) (s : State),
    encode standardOpc (.addcR rd rm op2) = rTypeShifted 0x63 rd.number rm.number op2 ∧
    ∃ r f t, exec (.addcR rd rm op2) s = .next t ∧
      AddSpec (s.readReg rm) (s.shifted op2) s.nzcv.c r f ∧
      WritesReg s.mode rd r s t ∧ FlagsBecome s t f)

/-- For every register, immediate and shifted operand, in every state, in both modes: SUB (both forms, with the opcode bytes of the default map) answers a next state in which Rd (or pc, when Rd is pc) is the result Rm - op2 and N, Z, C, V are those of the exact integer result; every other register of both banks, the rest of flags, mcr, every byte of memory and the environment are unchanged; pc is A + 4 unless Rd is pc. (R128, R129) -/
def Obligations.SubResult : Prop :=
  (∀ (rd rm : Reg) (imm : Half) (s : State),
    encode standardOpc (.subI rd rm imm) = iType 0x64 rd.number rm.number imm ∧
    ∃ r f t, exec (.subI rd rm imm) s = .next t ∧
      SubSpec s.cfg.subCOut (s.readReg rm) (imm.signExtend 32) false r f ∧
      WritesReg s.mode rd r s t ∧ FlagsBecome s t f) ∧
  (∀ (rd rm : Reg) (op2 : Shifted) (s : State),
    encode standardOpc (.subR rd rm op2) = rTypeShifted 0x65 rd.number rm.number op2 ∧
    ∃ r f t, exec (.subR rd rm op2) s = .next t ∧
      SubSpec s.cfg.subCOut (s.readReg rm) (s.shifted op2) false r f ∧
      WritesReg s.mode rd r s t ∧ FlagsBecome s t f)

/-- For every register, immediate and shifted operand, in every state, in both modes: SUBC (both forms, with the opcode bytes of the default map) answers a next state in which Rd (or pc, when Rd is pc) is the result Rm - op2 - C and N, Z, C, V are those of the exact integer result; every other register of both banks, the rest of flags, mcr, every byte of memory and the environment are unchanged; pc is A + 4 unless Rd is pc. That under SUB_C_OUT not_borrow the C subtracted is the flag as it stands is the model's reading (log 15, DEDUCED); under borrow, the default, the rules say it. (42_arithmetic.md R130, 42_arithmetic.md R131, 42_arithmetic.md R121) -/
def Obligations.SubcResult : Prop :=
  (∀ (rd rm : Reg) (imm : Half) (s : State),
    encode standardOpc (.subcI rd rm imm) = iType 0x66 rd.number rm.number imm ∧
    ∃ r f t, exec (.subcI rd rm imm) s = .next t ∧
      SubSpec s.cfg.subCOut (s.readReg rm) (imm.signExtend 32) s.nzcv.c r f ∧
      WritesReg s.mode rd r s t ∧ FlagsBecome s t f) ∧
  (∀ (rd rm : Reg) (op2 : Shifted) (s : State),
    encode standardOpc (.subcR rd rm op2) = rTypeShifted 0x67 rd.number rm.number op2 ∧
    ∃ r f t, exec (.subcR rd rm op2) s = .next t ∧
      SubSpec s.cfg.subCOut (s.readReg rm) (s.shifted op2) s.nzcv.c r f ∧
      WritesReg s.mode rd r s t ∧ FlagsBecome s t f)

/-- For every register, immediate and shifted operand, in every state, in both modes: RSUB (both forms, with the opcode bytes of the default map) answers a next state in which Rd (or pc, when Rd is pc) is the result op2 - Rm and N, Z, C, V are those of the exact integer result; every other register of both banks, the rest of flags, mcr, every byte of memory and the environment are unchanged; pc is A + 4 unless Rd is pc. (R132, R133) -/
def Obligations.RsubResult : Prop :=
  (∀ (rd rm : Reg) (imm : Half) (s : State),
    encode standardOpc (.rsubI rd rm imm) = iType 0x68 rd.number rm.number imm ∧
    ∃ r f t, exec (.rsubI rd rm imm) s = .next t ∧
      SubSpec s.cfg.subCOut (imm.signExtend 32) (s.readReg rm) false r f ∧
      WritesReg s.mode rd r s t ∧ FlagsBecome s t f) ∧
  (∀ (rd rm : Reg) (op2 : Shifted) (s : State),
    encode standardOpc (.rsubR rd rm op2) = rTypeShifted 0x69 rd.number rm.number op2 ∧
    ∃ r f t, exec (.rsubR rd rm op2) s = .next t ∧
      SubSpec s.cfg.subCOut (s.shifted op2) (s.readReg rm) false r f ∧
      WritesReg s.mode rd r s t ∧ FlagsBecome s t f)

/-- For every register, immediate and shifted operand, in every state, in both modes: RSUBC (both forms, with the opcode bytes of the default map) answers a next state in which Rd (or pc, when Rd is pc) is the result op2 - Rm - C and N, Z, C, V are those of the exact integer result; every other register of both banks, the rest of flags, mcr, every byte of memory and the environment are unchanged; pc is A + 4 unless Rd is pc. That under SUB_C_OUT not_borrow the C subtracted is the flag as it stands is the model's reading (log 15, DEDUCED); under borrow, the default, the rules say it. (42_arithmetic.md R134, 42_arithmetic.md R135, 42_arithmetic.md R121) -/
def Obligations.RsubcResult : Prop :=
  (∀ (rd rm : Reg) (imm : Half) (s : State),
    encode standardOpc (.rsubcI rd rm imm) = iType 0x6A rd.number rm.number imm ∧
    ∃ r f t, exec (.rsubcI rd rm imm) s = .next t ∧
      SubSpec s.cfg.subCOut (imm.signExtend 32) (s.readReg rm) s.nzcv.c r f ∧
      WritesReg s.mode rd r s t ∧ FlagsBecome s t f) ∧
  (∀ (rd rm : Reg) (op2 : Shifted) (s : State),
    encode standardOpc (.rsubcR rd rm op2) = rTypeShifted 0x6B rd.number rm.number op2 ∧
    ∃ r f t, exec (.rsubcR rd rm op2) s = .next t ∧
      SubSpec s.cfg.subCOut (s.shifted op2) (s.readReg rm) s.nzcv.c r f ∧
      WritesReg s.mode rd r s t ∧ FlagsBecome s t f)

/-- For every operand, in every state, in both modes: AND (both forms, with the opcode bytes of the default map) answers a next state in which Rd (or pc) is the bitwise result Rm & op2, N and Z are those of the result, and C and V are unconstrained, unchanged or 0 as LOGIC_CV says; every other register of both banks, the rest of flags, mcr, every byte of memory and the environment are unchanged; pc is A + 4 unless Rd is pc. (R141, R142) -/
def Obligations.AndResult : Prop :=
  (∀ (rd rm : Reg) (imm : Half) (s : State),
    encode standardOpc (.andI rd rm imm) = iType 0x80 rd.number rm.number imm ∧
    ∃ f t, exec (.andI rd rm imm) s = .next t ∧
      LogicSpec s.cfg.logicCV s.nzcv (s.readReg rm &&& imm.signExtend 32) f ∧
      WritesReg s.mode rd (s.readReg rm &&& imm.signExtend 32) s t ∧ FlagsBecome s t f) ∧
  (∀ (rd rm : Reg) (op2 : Shifted) (s : State),
    encode standardOpc (.andR rd rm op2) = rTypeShifted 0x81 rd.number rm.number op2 ∧
    ∃ f t, exec (.andR rd rm op2) s = .next t ∧
      LogicSpec s.cfg.logicCV s.nzcv (s.readReg rm &&& s.shifted op2) f ∧
      WritesReg s.mode rd (s.readReg rm &&& s.shifted op2) s t ∧ FlagsBecome s t f)

/-- For every operand, in every state, in both modes: BIC (both forms, with the opcode bytes of the default map) answers a next state in which Rd (or pc) is the bitwise result Rm & ~op2, N and Z are those of the result, and C and V are unconstrained, unchanged or 0 as LOGIC_CV says; every other register of both banks, the rest of flags, mcr, every byte of memory and the environment are unchanged; pc is A + 4 unless Rd is pc. (R143, R144) -/
def Obligations.BicResult : Prop :=
  (∀ (rd rm : Reg) (imm : Half) (s : State),
    encode standardOpc (.bicI rd rm imm) = iType 0x82 rd.number rm.number imm ∧
    ∃ f t, exec (.bicI rd rm imm) s = .next t ∧
      LogicSpec s.cfg.logicCV s.nzcv (s.readReg rm &&& ~~~(imm.signExtend 32)) f ∧
      WritesReg s.mode rd (s.readReg rm &&& ~~~(imm.signExtend 32)) s t ∧ FlagsBecome s t f) ∧
  (∀ (rd rm : Reg) (op2 : Shifted) (s : State),
    encode standardOpc (.bicR rd rm op2) = rTypeShifted 0x83 rd.number rm.number op2 ∧
    ∃ f t, exec (.bicR rd rm op2) s = .next t ∧
      LogicSpec s.cfg.logicCV s.nzcv (s.readReg rm &&& ~~~(s.shifted op2)) f ∧
      WritesReg s.mode rd (s.readReg rm &&& ~~~(s.shifted op2)) s t ∧ FlagsBecome s t f)

/-- For every operand, in every state, in both modes: OR (both forms, with the opcode bytes of the default map) answers a next state in which Rd (or pc) is the bitwise result Rm | op2, N and Z are those of the result, and C and V are unconstrained, unchanged or 0 as LOGIC_CV says; every other register of both banks, the rest of flags, mcr, every byte of memory and the environment are unchanged; pc is A + 4 unless Rd is pc. (R145, R146) -/
def Obligations.OrResult : Prop :=
  (∀ (rd rm : Reg) (imm : Half) (s : State),
    encode standardOpc (.orI rd rm imm) = iType 0x84 rd.number rm.number imm ∧
    ∃ f t, exec (.orI rd rm imm) s = .next t ∧
      LogicSpec s.cfg.logicCV s.nzcv (s.readReg rm ||| imm.signExtend 32) f ∧
      WritesReg s.mode rd (s.readReg rm ||| imm.signExtend 32) s t ∧ FlagsBecome s t f) ∧
  (∀ (rd rm : Reg) (op2 : Shifted) (s : State),
    encode standardOpc (.orR rd rm op2) = rTypeShifted 0x85 rd.number rm.number op2 ∧
    ∃ f t, exec (.orR rd rm op2) s = .next t ∧
      LogicSpec s.cfg.logicCV s.nzcv (s.readReg rm ||| s.shifted op2) f ∧
      WritesReg s.mode rd (s.readReg rm ||| s.shifted op2) s t ∧ FlagsBecome s t f)

/-- For every operand, in every state, in both modes: XOR (both forms, with the opcode bytes of the default map) answers a next state in which Rd (or pc) is the bitwise result Rm ^ op2, N and Z are those of the result, and C and V are unconstrained, unchanged or 0 as LOGIC_CV says; every other register of both banks, the rest of flags, mcr, every byte of memory and the environment are unchanged; pc is A + 4 unless Rd is pc. (R147, R148) -/
def Obligations.XorResult : Prop :=
  (∀ (rd rm : Reg) (imm : Half) (s : State),
    encode standardOpc (.xorI rd rm imm) = iType 0x86 rd.number rm.number imm ∧
    ∃ f t, exec (.xorI rd rm imm) s = .next t ∧
      LogicSpec s.cfg.logicCV s.nzcv (s.readReg rm ^^^ imm.signExtend 32) f ∧
      WritesReg s.mode rd (s.readReg rm ^^^ imm.signExtend 32) s t ∧ FlagsBecome s t f) ∧
  (∀ (rd rm : Reg) (op2 : Shifted) (s : State),
    encode standardOpc (.xorR rd rm op2) = rTypeShifted 0x87 rd.number rm.number op2 ∧
    ∃ f t, exec (.xorR rd rm op2) s = .next t ∧
      LogicSpec s.cfg.logicCV s.nzcv (s.readReg rm ^^^ s.shifted op2) f ∧
      WritesReg s.mode rd (s.readReg rm ^^^ s.shifted op2) s t ∧ FlagsBecome s t f)

/-- For every operand, in every state, in both modes: CMP (both forms, with the opcode bytes of the default map) answers a next state whose N, Z, C, V are those of the exact difference Rm - op2; no general or link register of either bank, no other bit of flags, no field of mcr, no byte of memory and nothing of the environment changes, and pc is A + 4. (R150, R151) -/
def Obligations.CmpResult : Prop :=
  (∀ (rm : Reg) (imm : Half) (s : State),
    encode standardOpc (.cmpI rm imm) = iType 0xA0 0 rm.number imm ∧
    ∃ r f t, exec (.cmpI rm imm) s = .next t ∧
      SubSpec s.cfg.subCOut (s.readReg rm) (imm.signExtend 32) false r f ∧ FlagsBecome s t f ∧
      t.pc = s.pc + 4 ∧ RegsKept s t ∧ t.mcr = s.mcr ∧ MemKept s t ∧ EnvKept s t) ∧
  (∀ (rm : Reg) (op2 : Shifted) (s : State),
    encode standardOpc (.cmpR rm op2) = rTypeShifted 0xA1 0 rm.number op2 ∧
    ∃ r f t, exec (.cmpR rm op2) s = .next t ∧
      SubSpec s.cfg.subCOut (s.readReg rm) (s.shifted op2) false r f ∧ FlagsBecome s t f ∧
      t.pc = s.pc + 4 ∧ RegsKept s t ∧ t.mcr = s.mcr ∧ MemKept s t ∧ EnvKept s t)

/-- For every operand, in every state, in both modes: TST (both forms, with the opcode bytes of the default map) answers a next state whose N and Z are those of Rm & op2, C and V unconstrained, unchanged or 0 as LOGIC_CV says; no general or link register of either bank, no other bit of flags, no field of mcr, no byte of memory and nothing of the environment changes, and pc is A + 4. (R152, R153) -/
def Obligations.TstResult : Prop :=
  (∀ (rm : Reg) (imm : Half) (s : State),
    encode standardOpc (.tstI rm imm) = iType 0xA2 0 rm.number imm ∧
    ∃ f t, exec (.tstI rm imm) s = .next t ∧
      LogicSpec s.cfg.logicCV s.nzcv (s.readReg rm &&& imm.signExtend 32) f ∧ FlagsBecome s t f ∧
      t.pc = s.pc + 4 ∧ RegsKept s t ∧ t.mcr = s.mcr ∧ MemKept s t ∧ EnvKept s t) ∧
  (∀ (rm : Reg) (op2 : Shifted) (s : State),
    encode standardOpc (.tstR rm op2) = rTypeShifted 0xA3 0 rm.number op2 ∧
    ∃ f t, exec (.tstR rm op2) s = .next t ∧
      LogicSpec s.cfg.logicCV s.nzcv (s.readReg rm &&& s.shifted op2) f ∧ FlagsBecome s t f ∧
      t.pc = s.pc + 4 ∧ RegsKept s t ∧ t.mcr = s.mcr ∧ MemKept s t ∧ EnvKept s t)

/-- For the three LDR forms, every operand and state: at an aligned address in RAM the instruction completes, Rd (or pc) is the word there and nothing else changes; in a device it completes with the environment's answer, the access recorded; at an address that is not a multiple of 4 it is fault UnalignedData, and where MemMap gives nothing fault UnmappedAccess. The opcode bytes are those of the default map. How a device answers, from the list devIn, and the record of the read in devLog are the model's choice (log 11, over decision D19). (40_load_store.md R100, 40_load_store.md R101, 40_load_store.md R102, 40_load_store.md R103, 20_memory.md R44, 20_memory.md R46, 20_memory.md R49, 20_memory.md R52) -/
def Obligations.LdrResult : Prop :=
  (∀ (rd : Reg) (imm : Half) (s : State),
    encode standardOpc (.ldrA rd imm) = iType 0x00 rd.number 0 imm ∧
    LoadSpec s rd (imm.signExtend 32) (exec (.ldrA rd imm) s)) ∧
  (∀ (rd rm : Reg) (imm : Half) (s : State),
    encode standardOpc (.ldrI rd rm imm) = iType 0x02 rd.number rm.number imm ∧
    LoadSpec s rd (s.readReg rm + imm.signExtend 32) (exec (.ldrI rd rm imm) s)) ∧
  (∀ (rd rm : Reg) (op2 : Shifted) (s : State),
    encode standardOpc (.ldrR rd rm op2) = rTypeShifted 0x03 rd.number rm.number op2 ∧
    LoadSpec s rd (s.readReg rm + s.shifted op2) (exec (.ldrR rd rm op2) s))

/-- For the three STR forms, every operand, and every state whose memory is canonical: at an aligned address in RAM the instruction completes, the word there is Rd, every byte outside those four is unchanged, and no register, flag or mcr field changes but pc, which is A + 4; in a device the write is recorded and memory unchanged; at an address that is not a multiple of 4 it is fault UnalignedData, and where MemMap gives nothing fault UnmappedAccess. The opcode bytes are those of the default map. The record of a device write in devLog, and that it is absorbed, are the model's choice (log 11, over decision D19). (40_load_store.md R100, 40_load_store.md R104, 40_load_store.md R105, 40_load_store.md R106, 20_memory.md R45, 20_memory.md R46, 20_memory.md R49, 20_memory.md R52) -/
def Obligations.StrResult : Prop :=
  (∀ (rd : Reg) (imm : Half) (s : State), Canonical s →
    encode standardOpc (.strA rd imm) = iType 0x20 rd.number 0 imm ∧
    StoreSpec s rd (imm.signExtend 32) (exec (.strA rd imm) s)) ∧
  (∀ (rd rm : Reg) (imm : Half) (s : State), Canonical s →
    encode standardOpc (.strI rd rm imm) = iType 0x22 rd.number rm.number imm ∧
    StoreSpec s rd (s.readReg rm + imm.signExtend 32) (exec (.strI rd rm imm) s)) ∧
  (∀ (rd rm : Reg) (op2 : Shifted) (s : State), Canonical s →
    encode standardOpc (.strR rd rm op2) = rTypeShifted 0x23 rd.number rm.number op2 ∧
    StoreSpec s rd (s.readReg rm + s.shifted op2) (exec (.strR rd rm op2) s))

/-- For every operand, in every state, in both modes: MOV immediate and MOV shifted register (with the opcode bytes of the default map) answer a next state in which Rd (or pc) is the sign-extended immediate, or sh(Rn); flags, mcr, every other register of both banks, every byte of memory and the environment are unchanged; pc is A + 4 unless Rd is pc. (R111, R112) -/
def Obligations.MovResult : Prop :=
  (∀ (rd : Reg) (imm : Half) (s : State),
    encode standardOpc (.movI rd imm) = iType 0x40 rd.number 0 imm ∧
    ∃ t, exec (.movI rd imm) s = .next t ∧ t.flags = s.flags ∧
      WritesReg s.mode rd (imm.signExtend 32) s t) ∧
  (∀ (rd : Reg) (op2 : Shifted) (s : State),
    encode standardOpc (.movR rd op2) = rTypeShifted 0x41 rd.number 0 op2 ∧
    ∃ t, exec (.movR rd op2) s = .next t ∧ t.flags = s.flags ∧
      WritesReg s.mode rd (s.shifted op2) s t)

/-- For every register, immediate and state, in both modes: MOVT (opcode 0x42 of the default map) answers a next state in which Rd (or pc) has the immediate in its upper half and the lower half that x[rd] read as before; flags, mcr, every other register of both banks, every byte of memory and the environment are unchanged. (That the lower half is kept is decision D12.) (41_move.md R110) -/
def Obligations.MovtResult : Prop :=
  ∀ (rd : Reg) (imm : Half) (s : State),
    encode standardOpc (.movtI rd imm) = iType 0x42 rd.number 0 imm ∧
    ∃ t v, exec (.movtI rd imm) s = .next t ∧ t.flags = s.flags ∧
      v.extractLsb' 16 16 = imm ∧ v.extractLsb' 0 16 = (s.readReg rd).extractLsb' 0 16 ∧
      WritesReg s.mode rd v s t

/-- For every Rd, Rm and state: MOV from the supervisor bank and from the interrupt bank complete, whatever the current mode; Rd (in the current view, or pc) becomes the named bank's register; r0 to r7 and pc name the one shared copy, pc reading A + PC_BIAS; flags, mcr, every other register, memory and the environment are unchanged. (Decision D41.) (41_move.md R113, 10_state.md R16) -/
def Obligations.MovFromModeBank : Prop :=
  ∀ (rd rm : Reg) (s : State),
    encode standardOpc (.movRb rd .supervisor rm) = rType 0x43 rd.number rm.number 0 0 0 1 ∧
    encode standardOpc (.movRb rd .interrupt rm) = rType 0x43 rd.number rm.number 0 0 0 2 ∧
    (∃ t, exec (.movRb rd .supervisor rm) s = .next t ∧ t.flags = s.flags ∧
      WritesReg s.mode rd (s.readIn .sup rm) s t) ∧
    (∃ t, exec (.movRb rd .interrupt rm) s = .next t ∧ t.flags = s.flags ∧
      WritesReg s.mode rd (s.readIn .irq rm) s t) ∧
    (isBanked rm = false → s.readIn .sup rm = s.readIn .irq rm) ∧
    s.readIn .sup .pc = s.pc + s.cfg.pcBias

/-- For every Rd and state, in both modes: MOV from bank 3 register 0 completes and writes Rd a value whose bits 11:8 are N, Z, C, V; from register 1 a value that agrees with mcr on every named field (all bits but 2 and 13:12). The reserved bits are free values. flags, mcr, every other register, memory and the environment are unchanged. (41_move.md R113, 10_state.md R26, 10_state.md R33) -/
def Obligations.MovFromStatusRegisters : Prop :=
  ∀ (rd : Reg) (s : State),
    (∃ t v, exec (.movRb rd .bank3 .r0) s = .next t ∧ t.flags = s.flags ∧
      nzcvOf v = s.nzcv ∧ WritesReg s.mode rd v s t) ∧
    (∃ t v, exec (.movRb rd .bank3 .r1) s = .next t ∧ t.flags = s.flags ∧
      v &&& 0xFFFFCFFB = s.mcr &&& 0xFFFFCFFB ∧ WritesReg s.mode rd v s t)

/-- In every state: both banked MOV forms fault ReservedBank with bank 00, whatever the registers, and ReservedBank3Register with bank 11 and a register number other than 0 and 1; nothing is read or written. (10_state.md R16, 10_state.md R35, 30_encoding.md R77) -/
def Obligations.MovReservedBankFaults : Prop :=
  ∀ (rd rm : Reg) (s : State),
    exec (.movRb rd .reserved rm) s = .fault .reservedBank ∧
    exec (.movWb .reserved rd rm) s = .fault .reservedBank ∧
    (rm ≠ .r0 → rm ≠ .r1 → exec (.movRb rd .bank3 rm) s = .fault .reservedBank3Register) ∧
    (rd ≠ .r0 → rd ≠ .r1 → exec (.movWb .bank3 rd rm) s = .fault .reservedBank3Register)

/-- For every Rd, Rm and state: MOV to the supervisor bank and to the interrupt bank complete, whatever the current mode; the named bank's register (or pc) becomes Rm as the current view reads it; flags, mcr, every other register of both banks, memory and the environment are unchanged; pc is A + 4 unless it is the destination. (Decision D41.) (41_move.md R114, 10_state.md R16) -/
def Obligations.MovToModeBank : Prop :=
  ∀ (rd rm : Reg) (s : State),
    encode standardOpc (.movWb .supervisor rd rm) = rType 0x45 rd.number rm.number 0 0 0 1 ∧
    encode standardOpc (.movWb .interrupt rd rm) = rType 0x45 rd.number rm.number 0 0 0 2 ∧
    (∃ t, exec (.movWb .supervisor rd rm) s = .next t ∧ t.flags = s.flags ∧
      WritesReg .sup rd (s.readReg rm) s t) ∧
    (∃ t, exec (.movWb .interrupt rd rm) s = .next t ∧ t.flags = s.flags ∧
      WritesReg .irq rd (s.readReg rm) s t)

/-- For every Rm and state, in both modes: MOV to flags completes, N, Z, C, V become bits 11:8 of Rm and the other bits of flags keep; MOV to mcr completes, mcr agrees with Rm on every named field (all bits but 2 and 13:12) and keeps the others, so that I is bit 0 and the mode bit 1 of Rm. Registers, memory and the environment are unchanged, and pc is A + 4. (41_move.md R114, 10_state.md R26, 10_state.md R33) -/
def Obligations.MovToStatusRegisters : Prop :=
  ∀ (rm : Reg) (s : State),
    (∃ t, exec (.movWb .bank3 .r0 rm) s = .next t ∧ FlagsBecome s t (nzcvOf (s.readReg rm)) ∧
      t.pc = s.pc + 4 ∧ RegsKept s t ∧ t.mcr = s.mcr ∧ MemKept s t ∧ EnvKept s t) ∧
    (∃ t, exec (.movWb .bank3 .r1 rm) s = .next t ∧
      t.mcr &&& 0xFFFFCFFB = s.readReg rm &&& 0xFFFFCFFB ∧
      t.mcr &&& 0x00003004 = s.mcr &&& 0x00003004 ∧
      t.intEnabled = (s.readReg rm).getLsbD 0 ∧
      t.mode = (if (s.readReg rm).getLsbD 1 then .sup else .irq) ∧
      t.pc = s.pc + 4 ∧ RegsKept s t ∧ t.flags = s.flags ∧ MemKept s t ∧ EnvKept s t)

/-- For every condition number, offset and state: if COND gives the number a predicate, B<c> (opcode 0xC0 of the default map) completes, pc is A + PC_BIAS + the sign-extended byte offset when the predicate holds of N, Z, C, V and A + 4 otherwise, and no register, flag, mcr field or byte of memory changes; if COND gives it none, fault ReservedCondition. (Decisions D2, D3, D5.) (45_branch.md R161, 45_branch.md R162) -/
def Obligations.BranchResult : Prop :=
  ∀ (cond : BitVec 4) (imm : Half) (s : State),
    encode standardOpc (.b cond imm) = iType 0xC0 cond 0 imm ∧
    (condOf s.cfg.cond cond = none → exec (.b cond imm) s = .fault .reservedCondition) ∧
    (∀ k, condOf s.cfg.cond cond = some k → ∃ t, exec (.b cond imm) s = .next t ∧
      OnlyPc (if condHolds s.cfg.subCOut k s.nzcv then s.pc + s.cfg.pcBias + imm.signExtend 32
        else s.pc + 4) s t)

/-- For every condition number, offset and state: if COND gives the number a predicate, B<c>L (opcode 0xC2 of the default map) completes; when the predicate holds, pc is A + PC_BIAS + the sign-extended offset and lr of the current mode is A + 4, every other register of both banks, flags, mcr, memory and the environment unchanged; when it does not, only pc changes, to A + 4. A number with no predicate is fault ReservedCondition. (Decisions D5, D6.) (45_branch.md R161, 45_branch.md R163) -/
def Obligations.BranchLinkResult : Prop :=
  ∀ (cond : BitVec 4) (imm : Half) (s : State),
    encode standardOpc (.bl cond imm) = iType 0xC2 cond 0 imm ∧
    (condOf s.cfg.cond cond = none → exec (.bl cond imm) s = .fault .reservedCondition) ∧
    (∀ k, condOf s.cfg.cond cond = some k → condHolds s.cfg.subCOut k s.nzcv = false →
      ∃ t, exec (.bl cond imm) s = .next t ∧ OnlyPc (s.pc + 4) s t) ∧
    (∀ k, condOf s.cfg.cond cond = some k → condHolds s.cfg.subCOut k s.nzcv = true →
      ∃ t, exec (.bl cond imm) s = .next t ∧ t.pc = s.pc + s.cfg.pcBias + imm.signExtend 32 ∧
        t.readIn s.mode .lr = s.pc + 4 ∧ RegsKeptBut s.mode .lr s t ∧ t.flags = s.flags ∧
        t.mcr = s.mcr ∧ MemKept s t ∧ EnvKept s t)

/-- For every immediate and state: above 31, fault ReservedIntVector. Otherwise with MCR.I = 1 INT (opcode 0xE0 of the default map) completes by trap entry with the immediate as vector number and A + 4 as return address. With I = 0: refused by name, the same trap entry, or pc to A + 4 alone, as INT_WHEN_MASKED says; under trapOrNop (the model's own setting, log 16) one of those two effects. The environment is unchanged. (Decision D29.) (46_system.md R170, 60_exceptions.md R186) -/
def Obligations.IntResult : Prop :=
  ∀ (imm : Half) (s : State),
    encode standardOpc (.int imm) = iType 0xE0 0 0 imm ∧
    (32 ≤ imm.toNat → exec (.int imm) s = .fault .reservedIntVector) ∧
    (∀ v : VecNum, v.toNat = imm.toNat →
      (s.intEnabled = true →
        ∃ t, exec (.int imm) s = .next t ∧ TrapSpec v (s.pc + 4) s t ∧ EnvKept s t) ∧
      (s.intEnabled = false → s.cfg.intWhenMasked = .refuse →
        exec (.int imm) s = .refused .maskedInt) ∧
      (s.intEnabled = false → s.cfg.intWhenMasked = .trap →
        ∃ t, exec (.int imm) s = .next t ∧ TrapSpec v (s.pc + 4) s t ∧ EnvKept s t) ∧
      (s.intEnabled = false → s.cfg.intWhenMasked = .nop →
        ∃ t, exec (.int imm) s = .next t ∧ OnlyPc (s.pc + 4) s t) ∧
      (s.intEnabled = false → s.cfg.intWhenMasked = .trapOrNop →
        ∃ t, exec (.int imm) s = .next t ∧
          ((TrapSpec v (s.pc + 4) s t ∧ EnvKept s t) ∨ OnlyPc (s.pc + 4) s t)))

/-- For every vector number, return address and state: after trap entry lr_i is the return address, MCR.F is N, Z, C, V, MCR.V the vector number, the mode is IRQ, I is 0, pc is VectorAddr of the vector; the other bits of mcr, flags, r0 to r7, both banks' r8 to r13, lr_s, memory and the environment are unchanged. (Decision D27.) (60_exceptions.md R186) -/
def Obligations.TrapEntryEffect : Prop :=
  ∀ (v : VecNum) (ret : Word) (s : State),
    TrapSpec v ret s (s.trapEntry v ret) ∧ EnvKept s (s.trapEntry v ret)

/-- For every IVT_BASE and vector number the address is IVT_BASE + 4*v modulo 2^32; where the platform lists its 32 addresses, it is the one listed. (Decision D28.) (60_exceptions.md R187) -/
def Obligations.VectorAddresses : Prop :=
  (∀ (base : Word) (v : VecNum),
    (vectorAddr (.slots base) v).toNat = (base.toNat + 4 * v.toNat) % 2 ^ 32) ∧
  (∀ (addr : Vector Word 32) (v : VecNum), vectorAddr (.explicit addr) v = addr[v.toNat])

/-- From every state in IRQ mode, the five instructions of R190, one after the other with no interrupt between them, complete; pc is lr_i, the mode supervisor, I is 1, N, Z, C, V are MCR.F, MCR.V, F, the debug fields and DSn are unchanged, r0 to r7 and the supervisor bank are unchanged, and memory and the environment too. (Decision D30.) (60_exceptions.md R190) -/
def Obligations.TrapReturnSequence : Prop :=
  ∀ s : State, s.mode = .irq → ∃ t, execAll trapReturn s = .next t ∧
    t.pc = s.bankI.lr ∧ t.mode = .sup ∧ t.intEnabled = true ∧ t.nzcv = s.savedFlags ∧
    t.mcr &&& 0xFFFFCFF8 = s.mcr &&& 0xFFFFCFF8 ∧ t.g = s.g ∧ t.bankS = s.bankS ∧
    t.bankI.lr = s.bankI.lr ∧ MemKept s t ∧ EnvKept s t

/-- In every state whose memory is canonical, at every aligned RAM address: the write completes, a read of the same address gives the word written and changes nothing, and a read of any other aligned RAM address gives what it held. (20_memory.md R44, 20_memory.md R45) -/
def Obligations.ReadAfterWriteOfMemory : Prop :=
  ∀ (s : State) (a v : Word), Canonical s → a.toNat % 4 = 0 → kindAt s.cfg.memMap a = .ram →
    ∃ t, s.storeData a v = .ok t ∧ t.loadData a = .ok (v, t) ∧
      ∀ b : Word, b.toNat % 4 = 0 → b ≠ a → kindAt s.cfg.memMap b = .ram →
        t.loadData b = .ok (Memory.word s.cfg.endian s.mem b.toNat, t)

/-- For the three STR forms, in every state whose memory is canonical: if the store completes at an address in RAM and control then stands at that address, the fetch reads the word stored, with nothing in between. (Decision D21.) (20_memory.md R56) -/
def Obligations.StoreIsSeenByFetch : Prop :=
  ∀ (s t : State) (ea v : Word), Canonical s → kindAt s.cfg.memMap ea = .ram →
    ((∃ rd imm, exec (.strA rd imm) s = .next t ∧ ea = eaAbsolute imm ∧ v = s.readReg rd) ∨
     (∃ rd rm imm, exec (.strI rd rm imm) s = .next t ∧ ea = s.eaDisplaced rm imm ∧
        v = s.readReg rd) ∨
     (∃ rd rm op2, exec (.strR rd rm op2) s = .next t ∧ ea = s.eaIndexed rm op2 ∧
        v = s.readReg rd)) →
    (t.setPc ea).fetch = .ok (v, t.setPc ea)

/-- In every canonical memory, after a word w is written at byte address a (a + 3 below 2^32): under ENDIAN little the byte at a + i is bits 8i+7:8i of w for i = 0 to 3; under big (the model's reading, log 20) it is bits 31-8i:24-8i. (20_memory.md R43) -/
def Obligations.ByteOrderOfWords : Prop :=
  ∀ (m : Memory) (a i : Nat) (w : Word), Memory.wf m = true → a + 3 < 2 ^ 32 → i < 4 →
    Memory.byte (Memory.setWord .little m a w) (a + i) = w.extractLsb' (8 * i) 8 ∧
    Memory.byte (Memory.setWord .big m a w) (a + i) = w.extractLsb' (24 - 8 * i) 8

/-- If debug is off, no interrupt request is accepted, pc is a multiple of 4 and in RAM, and the word at pc decodes to i, then the step is exec of i at the same state with this boundary's interrupt answer used up; in a device, the word is the environment's answer and the read is recorded first. The device clause is the model's reading: that a fetch is a read the device sees (log 22, DEDUCED), that its answer comes from devIn and is recorded (log 11); so is that each step uses up one interrupt answer (log 10). (60_exceptions.md R195, 20_memory.md R44, 20_memory.md R47) -/
def Obligations.StepRunsDecodedInstr : Prop :=
  ∀ (s : State) (i : Instr), s.debugOn = false → (s.intEnabled = false ∨ s.irqAnswer = none) →
    s.pc.toNat % 4 = 0 →
    (kindAt s.cfg.memMap s.pc = .ram →
      decode s.cfg.opc (Memory.word s.cfg.endian s.mem s.pc.toNat) = .ok i →
      step s = exec i { s with irqIn := s.irqIn.tail }) ∧
    (kindAt s.cfg.memMap s.pc = .device → decode s.cfg.opc s.deviceAnswer = .ok i →
      step s = exec i ({ s with irqIn := s.irqIn.tail }.deviceRead s.pc))

/-- With debug off and no request accepted: if pc is not a multiple of 4 the step is fault UnalignedFetch; if it is, and MemMap gives the word to nothing, fault UnmappedAccess; if the opcode byte of the word, in RAM or as a device answers it, is not a value of OPC, fault UndefinedOpcode, never a no-operation and never a trap. (Decisions D17, D23, D44.) That a fetch from a device takes the device's answer is the model's reading (logs 22 and 11). (20_memory.md R44, 20_memory.md R47, 20_memory.md R52, 30_encoding.md R78) -/
def Obligations.FetchFaults : Prop :=
  ∀ s : State, s.debugOn = false → s.acceptedIrq = none →
    (s.pc.toNat % 4 ≠ 0 → step s = .fault .unalignedFetch) ∧
    (s.pc.toNat % 4 = 0 → kindAt s.cfg.memMap s.pc = .nothing →
      step s = .fault .unmappedAccess) ∧
    (s.pc.toNat % 4 = 0 → kindAt s.cfg.memMap s.pc = .ram →
      formOf s.cfg.opc (opcodeField (Memory.word s.cfg.endian s.mem s.pc.toNat)) = none →
      step s = .fault .undefinedOpcode) ∧
    (s.pc.toNat % 4 = 0 → kindAt s.cfg.memMap s.pc = .device →
      formOf s.cfg.opc (opcodeField s.deviceAnswer) = none → step s = .fault .undefinedOpcode)

/-- In every state with mcr[14] = 1 the step is refused as debug mode, before any interrupt or fetch. (Decision D35: the spec gives debug mode no semantics.) (60_exceptions.md R200) -/
def Obligations.DebugModeRefused : Prop :=
  ∀ s : State, s.mcr.getLsbD 14 = true → step s = .refused .debugMode

/-- With debug off, MCR.I = 1 and a request v at this boundary, in either mode: the step completes by trap entry with vector v and the address of the next instruction not yet executed as return address; every register but lr_i, flags, memory and the device record are unchanged, and the answer is used up. (Decisions D26, D27, D32.) That each step uses up one answer is the model's choice (log 10). (60_exceptions.md R182, 60_exceptions.md R183, 60_exceptions.md R188, 60_exceptions.md R189) -/
def Obligations.AcceptedInterruptTraps : Prop :=
  ∀ (s : State) (v : VecNum), s.debugOn = false → s.intEnabled = true → s.irqAnswer = some v →
    ∃ t, step s = .next t ∧ TrapSpec v s.pc s t ∧ t.cfg = s.cfg ∧ t.irqIn = s.irqIn.tail ∧
      t.devIn = s.devIn ∧ t.devLog = s.devLog

/-- In every state with MCR.I = 0, whatever answers follow: the step with a request presented at this boundary and the step with none have the same outcome. That an answer not accepted is used up is the model's choice (log 10). (60_exceptions.md R182, 60_exceptions.md R183, 60_exceptions.md R194) -/
def Obligations.MaskedRequestLeavesNoTrace : Prop :=
  ∀ (s : State) (a b : Option VecNum) (rest : IrqSource), s.intEnabled = false →
    step { s with irqIn := .listed a rest } = step { s with irqIn := .listed b rest }

/-- For every state whose memory is canonical (addresses strictly rising, below 2^32, no entry equal to what an unlisted byte reads as), if the step answers a next state, that state's memory is canonical. (20_memory.md R45, 60_exceptions.md R195) -/
def Obligations.StepKeepsCanonicalMemory : Prop :=
  ∀ s t : State, Canonical s → step s = .next t → Canonical t

/-- For every setting of the parameters the state after reset has a canonical memory; so has State.reset. (10_state.md R38, 70_reset_and_hazards.md R210) -/
def Obligations.ResetMemoryIsCanonical : Prop :=
  (∀ c : Config, Canonical (State.resetOn c)) ∧ Canonical State.reset

/-- For every setting of the parameters: after reset the mode is supervisor (the source), MCR.I is RESET_I and MCR.DBG 0 (decision D33), pc is RESET_PC. The values the model gives what the spec leaves unspecified (logs 1 to 3) are not stated. State.reset is this at the default parameters, with I = 0. (10_state.md R38, 70_reset_and_hazards.md R210, 70_reset_and_hazards.md R211) -/
def Obligations.ResetState : Prop :=
  (∀ c : Config, (State.resetOn c).mode = .sup ∧ (State.resetOn c).intEnabled = c.resetI ∧
    (State.resetOn c).debugOn = false ∧ (State.resetOn c).pc = c.resetPc ∧
    (State.resetOn c).cfg = c) ∧
  State.reset = State.resetOn standardConfig ∧ State.reset.intEnabled = false

/-- For every state, if the step answers a next state: every parameter is as before, and so are the stored bits of flags outside 11:8 and bits 2 and 13:12 of mcr (a write to a reserved bit has no effect). These are the model's choices: that the parameters, the memory map among them, are fixed data in State (logs 6 and 7), and that the stored reserved bits, which no instruction can observe, keep (log 14); the rules cited say only that a write to a reserved bit has no effect and what the parameters are. (10_state.md R26, 10_state.md R33, 00_scope.md section 5) -/
def Obligations.StepKeepsParametersAndReservedBits : Prop :=
  ∀ s t : State, step s = .next t → t.cfg = s.cfg ∧
    t.flags &&& 0xFFFFF0FF = s.flags &&& 0xFFFFF0FF ∧
    t.mcr &&& 0x00003004 = s.mcr &&& 0x00003004

/-- For every state whose memory is canonical: if a step answers a next state in which the byte at address a differs, the step ran one of the three STR forms, and a is one of the four bytes from its effective address up. (20_memory.md R41) -/
def Obligations.OnlyStoresChangeMemory : Prop :=
  ∀ (s t : State) (a : Nat), Canonical s → step s = .next t →
    Memory.byte t.mem a ≠ Memory.byte s.mem a →
    ∃ i u ea, Runs s i u ∧ storeAddress u i = some ea ∧ ea.toNat ≤ a ∧ a < ea.toNat + 4

/-- For every state: if a step answers a next state whose flags differ, it ran ADD, ADDC, SUB, SUBC, RSUB, RSUBC, AND, BIC, OR, XOR, CMP or TST, in either form, or MOV to bank 3 register 0. Trap entry, loads, stores, other moves, branches and INT change no flag. (Decision D7.) (10_state.md R24) -/
def Obligations.OnlyListedFormsChangeFlags : Prop :=
  ∀ s t : State, step s = .next t → t.flags ≠ s.flags →
    ∃ i u, Runs s i u ∧ writesFlags i = true

/-- For every state: if a step answers a next state whose mcr differs, an interrupt was accepted, or the step ran INT, or MOV to bank 3 register 1. (10_state.md R34, 60_exceptions.md R186) -/
def Obligations.McrChangesOnlyByTrapOrMov : Prop :=
  ∀ s t : State, step s = .next t → t.mcr ≠ s.mcr →
    s.acceptedIrq ≠ none ∨
    (∃ imm u, Runs s (.int imm) u) ∨ (∃ rm u, Runs s (.movWb .bank3 .r1 rm) u)

/-- Supervisor mode is MCR.S = 1 and uses bank 1; IRQ mode is S = 0 and uses bank 2; r0 to r7 and pc are common to both, each mode having its own r8 to r13 and lr. For every state: if a step leads from IRQ to supervisor mode, it ran MOV to mcr with bit 1 of Rm set; if from supervisor to IRQ mode, it was an accepted interrupt, an INT, or MOV to mcr with bit 1 of Rm clear. (R180) -/
def Obligations.IrqModeLeftOnlyByMovToMcr : Prop :=
  (∀ s : State, (s.mode = .sup ↔ s.mcr.getLsbD 1 = true) ∧
    (s.mode = .sup → s.bank s.mode = s.bankS) ∧ (s.mode = .irq → s.bank s.mode = s.bankI) ∧
    (∀ r, isBanked r = false → s.readIn .sup r = s.readIn .irq r)) ∧
  (∀ s t : State, step s = .next t → s.mode = .irq → t.mode = .sup →
    ∃ rm u, Runs s (.movWb .bank3 .r1 rm) u ∧ (u.readReg rm).getLsbD 1 = true) ∧
  (∀ s t : State, step s = .next t → s.mode = .sup → t.mode = .irq →
    s.acceptedIrq ≠ none ∨ (∃ imm u, Runs s (.int imm) u) ∨
    (∃ rm u, Runs s (.movWb .bank3 .r1 rm) u ∧ (u.readReg rm).getLsbD 1 = false))

/-- For every state in IRQ mode: if a step answers a next state in which a register of the supervisor bank differs, the step ran MOV to bank 01 with a banked register as destination. (10_state.md R15, 10_state.md R16, 60_exceptions.md R193) -/
def Obligations.IrqModeCannotTouchSupervisorBank : Prop :=
  ∀ s t : State, s.mode = .irq → step s = .next t → t.bankS ≠ s.bankS →
    ∃ rd rm u, Runs s (.movWb .supervisor rd rm) u ∧ isBanked rd = true

/-- For every such instruction and state: executing it after exchanging the banks and the mode gives the outcome of executing it before, exchanged; faults and refusals are the same. (60_exceptions.md R181) -/
def Obligations.ModesExecuteAlike : Prop :=
  ∀ (i : Instr) (s : State), viewOnly i = true →
    exec i (swapModes s) = mapNext swapModes (exec i s)

/-- For every state: if a step answers a next state, the record of device accesses before is a prefix of the one after, at most two entries longer. The record, reads included, is the model's own (log 11), and that a fetch can be one of the two accesses is its reading (log 22). (20_memory.md R47, 20_memory.md R48, 20_memory.md R49, 20_memory.md R53) -/
def Obligations.DeviceRecordOnlyGrows : Prop :=
  ∀ s t : State, step s = .next t →
    s.devLog <+: t.devLog ∧ t.devLog.length ≤ s.devLog.length + 2

/-- With PC_BIAS 0 and condition number 14 always true, debug off and no request accepted, at a pc in RAM whose word is B 0: the step answers the same state, this boundary's interrupt answer used up. (Decision D39.) That the answer is used up is the model's choice (log 10). (00_scope.md R5, 70_reset_and_hazards.md R216) -/
def Obligations.HaltMarkerLoops : Prop :=
  ∀ s : State, s.cfg.pcBias = 0 → condOf s.cfg.cond 14 = some .al → s.debugOn = false →
    s.acceptedIrq = none → atHalt s → step s = .next { s with irqIn := s.irqIn.tail }
end

