-- ==== Sys2Proof/Laws/Bits.lean ====
section
/-! SUPPORT. Bits: what `merge`, the flag word and the byte order do. -/

namespace Sys2Proof.Laws

open Sys2Proof.Machine

theorem getLsbD_merge (mask old new : Word) (i : Nat) :
    (merge mask old new).getLsbD i = if mask.getLsbD i then new.getLsbD i else old.getLsbD i := by
  by_cases hi : i < 32
  · simp only [merge, BitVec.getLsbD_or, BitVec.getLsbD_and, BitVec.getLsbD_not, hi, decide_true,
      Bool.true_and]
    cases mask.getLsbD i <;> simp
  · simp [BitVec.getLsbD_of_ge _ i (Nat.le_of_not_lt hi)]

/-- Bits that the mask leaves out keep the old value. -/
theorem merge_and_not (mask old new : Word) : merge mask old new &&& ~~~mask = old &&& ~~~mask := by
  apply BitVec.eq_of_getLsbD_eq
  intro i hi
  simp only [BitVec.getLsbD_and, getLsbD_merge, BitVec.getLsbD_not, hi, decide_true, Bool.true_and]
  cases mask.getLsbD i <;> simp

/-- Bits that the mask selects have the new value. -/
theorem merge_and (mask old new : Word) : merge mask old new &&& mask = new &&& mask := by
  apply BitVec.eq_of_getLsbD_eq
  intro i _
  simp only [BitVec.getLsbD_and, getLsbD_merge]
  cases mask.getLsbD i <;> simp

@[simp] theorem nzcvOf_merge_nzcvWord (w : Word) (f : Nzcv) :
    nzcvOf (merge nzcvMask w (nzcvWord f)) = f := by
  obtain ⟨n, z, c, v⟩ := f
  simp only [nzcvOf, getLsbD_merge]
  cases n <;> cases z <;> cases c <;> cases v <;> rfl

/-- The four flags are exactly the bits the mask selects. -/
theorem nzcvOf_merge (w v : Word) : nzcvOf (merge nzcvMask w v) = nzcvOf v := by
  simp only [nzcvOf, getLsbD_merge]
  rfl

theorem joinBytes_byteOf (e : Endian) (w : Word) :
    joinBytes e (byteOf e w 0) (byteOf e w 1) (byteOf e w 2) (byteOf e w 3) = w := by
  cases e
  all_goals
    simp only [joinBytes, byteOf]
    rw [BitVec.extractLsb'_append_extractLsb'_eq_extractLsb' (by omega),
      BitVec.extractLsb'_append_extractLsb'_eq_extractLsb' (by omega),
      BitVec.extractLsb'_append_extractLsb'_eq_extractLsb' (by omega)]
    exact BitVec.extractLsb'_eq_self

end Sys2Proof.Laws
end

