-- ==== Sys2Proof/Laws/Encoding.lean ====
section
/-! SUPPORT. Encoding: each field of an assembled word is the field it was assembled from, and each name's number names it again. -/

namespace Sys2Proof.Laws

@[simp] theorem reg_ofNumber_number (r : Reg) : Reg.ofNumber r.number = r := by
  cases r <;> rfl

@[simp] theorem reg_number_ofNumber (n : BitVec 4) : (Reg.ofNumber n).number = n := by
  revert n; decide

@[simp] theorem shiftDir_ofNumber_number (d : ShiftDir) : ShiftDir.ofNumber d.number = d := by
  cases d <;> rfl

@[simp] theorem shiftDir_number_ofNumber (n : BitVec 2) : (ShiftDir.ofNumber n).number = n := by
  revert n; decide

@[simp] theorem bank_ofNumber_number (k : Bank) : Bank.ofNumber k.number = k := by
  cases k <;> rfl

@[simp] theorem bank_number_ofNumber (n : BitVec 2) : (Bank.ofNumber n).number = n := by
  revert n; decide

/-! ### I-type words (R63) -/

section IType
variable (op : Byte) (rd rm : BitVec 4) (imm : Half)

@[simp] theorem opcodeField_iType : opcodeField (iType op rd rm imm) = op := by
  unfold opcodeField iType
  rw [BitVec.extractLsb'_append_eq_of_le (by omega), BitVec.extractLsb'_append_eq_of_le (by omega),
    BitVec.extractLsb'_append_eq_of_le (by omega)]
  exact BitVec.extractLsb'_eq_self

@[simp] theorem rdField_iType : rdField (iType op rd rm imm) = rd := by
  unfold rdField iType
  rw [BitVec.extractLsb'_append_eq_of_le (by omega), BitVec.extractLsb'_append_eq_of_le (by omega),
    BitVec.extractLsb'_append_eq_of_add_le (by omega)]
  exact BitVec.extractLsb'_eq_self

@[simp] theorem rmField_iType : rmField (iType op rd rm imm) = rm := by
  unfold rmField iType
  rw [BitVec.extractLsb'_append_eq_of_le (by omega),
    BitVec.extractLsb'_append_eq_of_add_le (by omega)]
  exact BitVec.extractLsb'_eq_self

@[simp] theorem imm16Field_iType : imm16Field (iType op rd rm imm) = imm := by
  unfold imm16Field iType
  rw [BitVec.extractLsb'_append_eq_of_add_le (by omega)]
  exact BitVec.extractLsb'_eq_self

end IType

/-! ### R-type words (R65) -/

section RType
variable (op : Byte) (rd rm rn : BitVec 4) (sh : BitVec 5) (dir bank : BitVec 2)

@[simp] theorem opcodeField_rType : opcodeField (rType op rd rm rn sh dir bank) = op := by
  unfold opcodeField rType
  rw [BitVec.extractLsb'_append_eq_of_le (by omega), BitVec.extractLsb'_append_eq_of_le (by omega),
    BitVec.extractLsb'_append_eq_of_le (by omega), BitVec.extractLsb'_append_eq_of_le (by omega),
    BitVec.extractLsb'_append_eq_of_le (by omega), BitVec.extractLsb'_append_eq_of_le (by omega),
    BitVec.extractLsb'_append_eq_of_le (by omega)]
  exact BitVec.extractLsb'_eq_self

@[simp] theorem rdField_rType : rdField (rType op rd rm rn sh dir bank) = rd := by
  unfold rdField rType
  rw [BitVec.extractLsb'_append_eq_of_le (by omega), BitVec.extractLsb'_append_eq_of_le (by omega),
    BitVec.extractLsb'_append_eq_of_le (by omega), BitVec.extractLsb'_append_eq_of_le (by omega),
    BitVec.extractLsb'_append_eq_of_le (by omega), BitVec.extractLsb'_append_eq_of_le (by omega),
    BitVec.extractLsb'_append_eq_of_add_le (by omega)]
  exact BitVec.extractLsb'_eq_self

@[simp] theorem rmField_rType : rmField (rType op rd rm rn sh dir bank) = rm := by
  unfold rmField rType
  rw [BitVec.extractLsb'_append_eq_of_le (by omega), BitVec.extractLsb'_append_eq_of_le (by omega),
    BitVec.extractLsb'_append_eq_of_le (by omega), BitVec.extractLsb'_append_eq_of_le (by omega),
    BitVec.extractLsb'_append_eq_of_le (by omega),
    BitVec.extractLsb'_append_eq_of_add_le (by omega)]
  exact BitVec.extractLsb'_eq_self

@[simp] theorem rnField_rType : rnField (rType op rd rm rn sh dir bank) = rn := by
  unfold rnField rType
  rw [BitVec.extractLsb'_append_eq_of_le (by omega), BitVec.extractLsb'_append_eq_of_le (by omega),
    BitVec.extractLsb'_append_eq_of_le (by omega), BitVec.extractLsb'_append_eq_of_le (by omega),
    BitVec.extractLsb'_append_eq_of_add_le (by omega)]
  exact BitVec.extractLsb'_eq_self

@[simp] theorem shField_rType : shField (rType op rd rm rn sh dir bank) = sh := by
  unfold shField rType
  rw [BitVec.extractLsb'_append_eq_of_le (by omega), BitVec.extractLsb'_append_eq_of_le (by omega),
    BitVec.extractLsb'_append_eq_of_le (by omega),
    BitVec.extractLsb'_append_eq_of_add_le (by omega)]
  exact BitVec.extractLsb'_eq_self

@[simp] theorem dirField_rType : dirField (rType op rd rm rn sh dir bank) = dir := by
  unfold dirField rType
  rw [BitVec.extractLsb'_append_eq_of_le (by omega), BitVec.extractLsb'_append_eq_of_le (by omega),
    BitVec.extractLsb'_append_eq_of_add_le (by omega)]
  exact BitVec.extractLsb'_eq_self

@[simp] theorem bankField_rType : bankField (rType op rd rm rn sh dir bank) = bank := by
  unfold bankField rType
  rw [BitVec.extractLsb'_append_eq_of_le (by omega),
    BitVec.extractLsb'_append_eq_of_add_le (by omega)]
  exact BitVec.extractLsb'_eq_self

end RType

/-- The operand `sh(Rn)` of an assembled word. -/
@[simp] theorem shiftedOf_rTypeShifted (op : Byte) (rd rm : BitVec 4) (op2 : Shifted) :
    shiftedOf (rTypeShifted op rd rm op2) = op2 := by
  simp [shiftedOf, rTypeShifted]

/-- What a lawful map says: the opcode byte of a form decodes to that form. -/
theorem formOf_opcodeOf {opc : OpcodeMap} (h : lawfulOpc opc = true) (f : Form) :
    formOf opc (opcodeOf opc f) = some f := by
  have hf : f ∈ allForms := by cases f <;> decide
  exact eq_of_beq (List.all_eq_true.mp h f hf)

end Sys2Proof.Laws
end

