-- ==== Sys2Proof/Laws/Memory.lean ====
section
/-! SUPPORT. Memory: every memory operation keeps the canonical form, and a read sees the last write. -/

namespace Sys2Proof.Laws

open Sys2Proof.Machine

theorem wfFrom_mono {lo lo' : Nat} {m : Memory} (h : lo' ≤ lo) (hm : Memory.wfFrom lo m = true) :
    Memory.wfFrom lo' m = true := by
  cases m with
  | nil => rfl
  | cons p rest =>
    simp only [Memory.wfFrom, Bool.and_eq_true, decide_eq_true_eq] at hm ⊢
    exact ⟨⟨⟨Nat.le_trans h hm.1.1.1, hm.1.1.2⟩, hm.1.2⟩, hm.2⟩

/-- Below the lowest listed address every byte reads as unwritten. -/
theorem byte_of_lt {lo a : Nat} {m : Memory} (hm : Memory.wfFrom lo m = true) (h : a < lo) :
    Memory.byte m a = unwrittenByte := by
  cases m with
  | nil => rfl
  | cons p rest =>
    simp only [Memory.wfFrom, Bool.and_eq_true, decide_eq_true_eq] at hm
    have : a < p.1 := by omega
    simp [Memory.byte, this, Nat.ne_of_gt this]

theorem wfFrom_setByte {lo a : Nat} {m : Memory} (b : Byte) (hm : Memory.wfFrom lo m = true)
    (hlo : lo ≤ a) (ha : a < 2 ^ 32) : Memory.wfFrom lo (Memory.setByte m a b) = true := by
  induction m generalizing lo with
  | nil =>
    unfold Memory.setByte
    split <;> simp_all [Memory.wfFrom]
  | cons p rest ih =>
    obtain ⟨k, c⟩ := p
    simp only [Memory.wfFrom, Bool.and_eq_true, decide_eq_true_eq] at hm
    obtain ⟨⟨⟨h1, h2⟩, h3⟩, h4⟩ := hm
    unfold Memory.setByte
    split
    · simpa [Memory.wfFrom, h1, h3, ih h4 (by omega)] using h2
    · split
      · split
        · exact wfFrom_mono (by omega) h4
        · subst k
          simp_all [Memory.wfFrom]
      · have hlt : a < k := by omega
        split
        · simpa [Memory.wfFrom, h1, h3, h4] using h2
        · simp_all [Memory.wfFrom]

/-- Writing a byte keeps the canonical form. -/
theorem wf_setByte {m : Memory} {a : Nat} (b : Byte) (hm : Memory.wf m = true) (ha : a < 2 ^ 32) :
    Memory.wf (Memory.setByte m a b) = true :=
  wfFrom_setByte b hm (Nat.zero_le a) ha

/-- Writing a word keeps the canonical form. -/
theorem wf_setWord {m : Memory} {a : Nat} (e : Endian) (w : Word) (hm : Memory.wf m = true)
    (ha : a + 3 < 2 ^ 32) : Memory.wf (Memory.setWord e m a w) = true := by
  unfold Memory.setWord
  exact wf_setByte _ (wf_setByte _ (wf_setByte _ (wf_setByte _ hm (by omega)) (by omega))
    (by omega)) (by omega)

theorem byte_setByte_from {lo a : Nat} {m : Memory} (b : Byte) (hm : Memory.wfFrom lo m = true)
    (x : Nat) : Memory.byte (Memory.setByte m a b) x = if x = a then b else Memory.byte m x := by
  induction m generalizing lo with
  | nil =>
    unfold Memory.setByte
    by_cases hb : b = unwrittenByte
    · simp [hb, Memory.byte]
    · by_cases hx : x = a
      · simp [hb, Memory.byte, hx]
      · simp [hb, Memory.byte, hx, Ne.symm hx]
  | cons p rest ih =>
    obtain ⟨k, c⟩ := p
    simp only [Memory.wfFrom, Bool.and_eq_true, decide_eq_true_eq] at hm
    obtain ⟨⟨⟨_, _⟩, _⟩, h4⟩ := hm
    unfold Memory.setByte
    by_cases hka : k < a
    · simp only [hka, if_true, Memory.byte, ih h4]
      by_cases hx : x = a
      · simp [hx, Nat.ne_of_lt hka, Nat.le_of_lt hka]
      · simp [hx]
    · by_cases hke : k = a
      · subst k
        by_cases hb : b = unwrittenByte
        · by_cases hx : x = a
          · simp [hb, hx, byte_of_lt h4]
          · by_cases hlt : x < a
            · simp [hb, hx, Memory.byte, Ne.symm hx, hlt, byte_of_lt h4 (by omega : x < a + 1)]
            · simp [hb, hx, Memory.byte, Ne.symm hx, hlt]
        · by_cases hx : x = a
          · simp [hb, hx, Memory.byte]
          · simp [hb, hx, Memory.byte, Ne.symm hx]
      · have hak : a < k := by omega
        by_cases hb : b = unwrittenByte
        · by_cases hx : x = a
          · simp [hb, hx, Memory.byte, hka, hke, hak]
          · simp [hb, hx, Memory.byte, hka, hke]
        · by_cases hx : x = a
          · simp [hb, hx, Memory.byte, hka, hke]
          · by_cases hlt : x < a
            · have hk : ¬ k = x := by omega
              have hxk : x < k := by omega
              simp [hb, hx, Memory.byte, hka, hke, Ne.symm hx, hlt, hk, hxk]
            · simp [hb, hx, Memory.byte, hka, hke, Ne.symm hx, hlt]

/-- A read after a byte write: the written byte at its address, the old byte everywhere else. -/
theorem byte_setByte {m : Memory} (a : Nat) (b : Byte) (hm : Memory.wf m = true) (x : Nat) :
    Memory.byte (Memory.setByte m a b) x = if x = a then b else Memory.byte m x :=
  byte_setByte_from b hm x

/-- A read after a word write, byte by byte. -/
theorem byte_setWord {m : Memory} {a : Nat} (e : Endian) (w : Word) (hm : Memory.wf m = true)
    (ha : a + 3 < 2 ^ 32) (x : Nat) :
    Memory.byte (Memory.setWord e m a w) x =
      if x = a + 3 then byteOf e w 3 else if x = a + 2 then byteOf e w 2
      else if x = a + 1 then byteOf e w 1 else if x = a then byteOf e w 0 else Memory.byte m x := by
  have h1 := wf_setByte (byteOf e w 0) hm (by omega : a < 2 ^ 32)
  have h2 := wf_setByte (byteOf e w 1) h1 (by omega : a + 1 < 2 ^ 32)
  have h3 := wf_setByte (byteOf e w 2) h2 (by omega : a + 2 < 2 ^ 32)
  simp only [Memory.setWord, byte_setByte _ _ h3, byte_setByte _ _ h2, byte_setByte _ _ h1,
    byte_setByte _ _ hm]

/-- The word just written reads back, in either byte order. -/
theorem word_setWord {m : Memory} {a : Nat} (e : Endian) (w : Word) (hm : Memory.wf m = true)
    (ha : a + 3 < 2 ^ 32) : Memory.word e (Memory.setWord e m a w) a = w := by
  simp only [Memory.word, byte_setWord e w hm ha]
  simpa using joinBytes_byteOf e w

/-- A byte outside the four of a written word keeps its value. -/
theorem byte_setWord_outside {m : Memory} {a : Nat} (e : Endian) (w : Word)
    (hm : Memory.wf m = true) (ha : a + 3 < 2 ^ 32) {x : Nat} (hx : x < a ∨ a + 4 ≤ x) :
    Memory.byte (Memory.setWord e m a w) x = Memory.byte m x := by
  rw [byte_setWord e w hm ha]
  simp only [show ¬ x = a + 3 by omega, show ¬ x = a + 2 by omega, show ¬ x = a + 1 by omega,
    show ¬ x = a by omega, if_false]

/-- A word that does not overlap the written one keeps its value. -/
theorem word_setWord_outside {m : Memory} {a : Nat} (e : Endian) (w : Word)
    (hm : Memory.wf m = true) (ha : a + 3 < 2 ^ 32) {x : Nat} (hx : x + 4 ≤ a ∨ a + 4 ≤ x) :
    Memory.word e (Memory.setWord e m a w) x = Memory.word e m x := by
  simp only [Memory.word]
  rw [byte_setWord_outside e w hm ha (by omega), byte_setWord_outside e w hm ha (by omega),
    byte_setWord_outside e w hm ha (by omega), byte_setWord_outside e w hm ha (by omega)]

/-- The memory after reset has the canonical form, whatever the parameters. -/
theorem wf_resetOn (c : Config) : Memory.wf (State.resetOn c).mem = true := rfl

end Sys2Proof.Laws
end

