-- ==== Sys2Proof/Laws/State.lean ====
section
/-! SUPPORT. State: one lemma per field per update, so that no proof unfolds a record update. -/

namespace Sys2Proof.Laws

open Sys2Proof.Machine

/-! ### The answers of `IrqSource` (R182) -/

@[simp] theorem irqSource_head_always (a : Option VecNum) : (IrqSource.always a).head = a := rfl
@[simp] theorem irqSource_head_free (n : Nat) : (IrqSource.free n).head = Config.anyIrq n := rfl
@[simp] theorem irqSource_head_listed (a : Option VecNum) (q : IrqSource) :
    (IrqSource.listed a q).head = a := rfl
@[simp] theorem irqSource_tail_always (a : Option VecNum) :
    (IrqSource.always a).tail = .always a := rfl
@[simp] theorem irqSource_tail_free (n : Nat) : (IrqSource.free n).tail = .free (n + 1) := rfl
@[simp] theorem irqSource_tail_listed (a : Option VecNum) (q : IrqSource) :
    (IrqSource.listed a q).tail = q := rfl

/-! ### setNzcv -/

@[simp] theorem setNzcv_g (s : State) (f : Nzcv) : (s.setNzcv f).g = s.g := rfl
@[simp] theorem setNzcv_bankS (s : State) (f : Nzcv) : (s.setNzcv f).bankS = s.bankS := rfl
@[simp] theorem setNzcv_bankI (s : State) (f : Nzcv) : (s.setNzcv f).bankI = s.bankI := rfl
@[simp] theorem setNzcv_pc (s : State) (f : Nzcv) : (s.setNzcv f).pc = s.pc := rfl
@[simp] theorem setNzcv_flags (s : State) (f : Nzcv) : (s.setNzcv f).flags = merge nzcvMask s.flags (nzcvWord f) := rfl
@[simp] theorem setNzcv_mcr (s : State) (f : Nzcv) : (s.setNzcv f).mcr = s.mcr := rfl
@[simp] theorem setNzcv_mem (s : State) (f : Nzcv) : (s.setNzcv f).mem = s.mem := rfl
@[simp] theorem setNzcv_cfg (s : State) (f : Nzcv) : (s.setNzcv f).cfg = s.cfg := rfl
@[simp] theorem setNzcv_irqIn (s : State) (f : Nzcv) : (s.setNzcv f).irqIn = s.irqIn := rfl
@[simp] theorem setNzcv_devIn (s : State) (f : Nzcv) : (s.setNzcv f).devIn = s.devIn := rfl
@[simp] theorem setNzcv_devLog (s : State) (f : Nzcv) : (s.setNzcv f).devLog = s.devLog := rfl
@[simp] theorem setNzcv_draws (s : State) (f : Nzcv) : (s.setNzcv f).draws = s.draws := rfl

/-! ### drawTwo -/

@[simp] theorem drawTwo_g (s : State) : s.drawTwo.g = s.g := rfl
@[simp] theorem drawTwo_bankS (s : State) : s.drawTwo.bankS = s.bankS := rfl
@[simp] theorem drawTwo_bankI (s : State) : s.drawTwo.bankI = s.bankI := rfl
@[simp] theorem drawTwo_pc (s : State) : s.drawTwo.pc = s.pc := rfl
@[simp] theorem drawTwo_flags (s : State) : s.drawTwo.flags = s.flags := rfl
@[simp] theorem drawTwo_mcr (s : State) : s.drawTwo.mcr = s.mcr := rfl
@[simp] theorem drawTwo_mem (s : State) : s.drawTwo.mem = s.mem := rfl
@[simp] theorem drawTwo_cfg (s : State) : s.drawTwo.cfg = s.cfg := rfl
@[simp] theorem drawTwo_irqIn (s : State) : s.drawTwo.irqIn = s.irqIn := rfl
@[simp] theorem drawTwo_devIn (s : State) : s.drawTwo.devIn = s.devIn := rfl
@[simp] theorem drawTwo_devLog (s : State) : s.drawTwo.devLog = s.devLog := rfl
@[simp] theorem drawTwo_draws (s : State) : s.drawTwo.draws = s.draws + 2 := rfl

/-! ### drawOne -/

@[simp] theorem drawOne_g (s : State) : s.drawOne.g = s.g := rfl
@[simp] theorem drawOne_bankS (s : State) : s.drawOne.bankS = s.bankS := rfl
@[simp] theorem drawOne_bankI (s : State) : s.drawOne.bankI = s.bankI := rfl
@[simp] theorem drawOne_pc (s : State) : s.drawOne.pc = s.pc := rfl
@[simp] theorem drawOne_flags (s : State) : s.drawOne.flags = s.flags := rfl
@[simp] theorem drawOne_mcr (s : State) : s.drawOne.mcr = s.mcr := rfl
@[simp] theorem drawOne_mem (s : State) : s.drawOne.mem = s.mem := rfl
@[simp] theorem drawOne_cfg (s : State) : s.drawOne.cfg = s.cfg := rfl
@[simp] theorem drawOne_irqIn (s : State) : s.drawOne.irqIn = s.irqIn := rfl
@[simp] theorem drawOne_devIn (s : State) : s.drawOne.devIn = s.devIn := rfl
@[simp] theorem drawOne_devLog (s : State) : s.drawOne.devLog = s.devLog := rfl
@[simp] theorem drawOne_draws (s : State) : s.drawOne.draws = s.draws + 1 := rfl

/-! ### advance -/

@[simp] theorem advance_g (s : State) : s.advance.g = s.g := rfl
@[simp] theorem advance_bankS (s : State) : s.advance.bankS = s.bankS := rfl
@[simp] theorem advance_bankI (s : State) : s.advance.bankI = s.bankI := rfl
@[simp] theorem advance_pc (s : State) : s.advance.pc = s.pc + 4 := rfl
@[simp] theorem advance_flags (s : State) : s.advance.flags = s.flags := rfl
@[simp] theorem advance_mcr (s : State) : s.advance.mcr = s.mcr := rfl
@[simp] theorem advance_mem (s : State) : s.advance.mem = s.mem := rfl
@[simp] theorem advance_cfg (s : State) : s.advance.cfg = s.cfg := rfl
@[simp] theorem advance_irqIn (s : State) : s.advance.irqIn = s.irqIn := rfl
@[simp] theorem advance_devIn (s : State) : s.advance.devIn = s.devIn := rfl
@[simp] theorem advance_devLog (s : State) : s.advance.devLog = s.devLog := rfl
@[simp] theorem advance_draws (s : State) : s.advance.draws = s.draws := rfl

/-! ### setPc -/

@[simp] theorem setPc_g (s : State) (v : Word) : (s.setPc v).g = s.g := rfl
@[simp] theorem setPc_bankS (s : State) (v : Word) : (s.setPc v).bankS = s.bankS := rfl
@[simp] theorem setPc_bankI (s : State) (v : Word) : (s.setPc v).bankI = s.bankI := rfl
@[simp] theorem setPc_pc (s : State) (v : Word) : (s.setPc v).pc = v := rfl
@[simp] theorem setPc_flags (s : State) (v : Word) : (s.setPc v).flags = s.flags := rfl
@[simp] theorem setPc_mcr (s : State) (v : Word) : (s.setPc v).mcr = s.mcr := rfl
@[simp] theorem setPc_mem (s : State) (v : Word) : (s.setPc v).mem = s.mem := rfl
@[simp] theorem setPc_cfg (s : State) (v : Word) : (s.setPc v).cfg = s.cfg := rfl
@[simp] theorem setPc_irqIn (s : State) (v : Word) : (s.setPc v).irqIn = s.irqIn := rfl
@[simp] theorem setPc_devIn (s : State) (v : Word) : (s.setPc v).devIn = s.devIn := rfl
@[simp] theorem setPc_devLog (s : State) (v : Word) : (s.setPc v).devLog = s.devLog := rfl
@[simp] theorem setPc_draws (s : State) (v : Word) : (s.setPc v).draws = s.draws := rfl

/-! ### writeFlags -/

@[simp] theorem writeFlags_g (s : State) (v : Word) : (s.writeFlags v).g = s.g := rfl
@[simp] theorem writeFlags_bankS (s : State) (v : Word) : (s.writeFlags v).bankS = s.bankS := rfl
@[simp] theorem writeFlags_bankI (s : State) (v : Word) : (s.writeFlags v).bankI = s.bankI := rfl
@[simp] theorem writeFlags_pc (s : State) (v : Word) : (s.writeFlags v).pc = s.pc := rfl
@[simp] theorem writeFlags_flags (s : State) (v : Word) : (s.writeFlags v).flags = merge nzcvMask s.flags v := rfl
@[simp] theorem writeFlags_mcr (s : State) (v : Word) : (s.writeFlags v).mcr = s.mcr := rfl
@[simp] theorem writeFlags_mem (s : State) (v : Word) : (s.writeFlags v).mem = s.mem := rfl
@[simp] theorem writeFlags_cfg (s : State) (v : Word) : (s.writeFlags v).cfg = s.cfg := rfl
@[simp] theorem writeFlags_irqIn (s : State) (v : Word) : (s.writeFlags v).irqIn = s.irqIn := rfl
@[simp] theorem writeFlags_devIn (s : State) (v : Word) : (s.writeFlags v).devIn = s.devIn := rfl
@[simp] theorem writeFlags_devLog (s : State) (v : Word) : (s.writeFlags v).devLog = s.devLog := rfl
@[simp] theorem writeFlags_draws (s : State) (v : Word) : (s.writeFlags v).draws = s.draws := rfl

/-! ### writeMcr -/

@[simp] theorem writeMcr_g (s : State) (v : Word) : (s.writeMcr v).g = s.g := rfl
@[simp] theorem writeMcr_bankS (s : State) (v : Word) : (s.writeMcr v).bankS = s.bankS := rfl
@[simp] theorem writeMcr_bankI (s : State) (v : Word) : (s.writeMcr v).bankI = s.bankI := rfl
@[simp] theorem writeMcr_pc (s : State) (v : Word) : (s.writeMcr v).pc = s.pc := rfl
@[simp] theorem writeMcr_flags (s : State) (v : Word) : (s.writeMcr v).flags = s.flags := rfl
@[simp] theorem writeMcr_mcr (s : State) (v : Word) : (s.writeMcr v).mcr = merge mcrNamedMask s.mcr v := rfl
@[simp] theorem writeMcr_mem (s : State) (v : Word) : (s.writeMcr v).mem = s.mem := rfl
@[simp] theorem writeMcr_cfg (s : State) (v : Word) : (s.writeMcr v).cfg = s.cfg := rfl
@[simp] theorem writeMcr_irqIn (s : State) (v : Word) : (s.writeMcr v).irqIn = s.irqIn := rfl
@[simp] theorem writeMcr_devIn (s : State) (v : Word) : (s.writeMcr v).devIn = s.devIn := rfl
@[simp] theorem writeMcr_devLog (s : State) (v : Word) : (s.writeMcr v).devLog = s.devLog := rfl
@[simp] theorem writeMcr_draws (s : State) (v : Word) : (s.writeMcr v).draws = s.draws := rfl

/-! ### deviceWrite -/

@[simp] theorem deviceWrite_g (s : State) (a v : Word) : (s.deviceWrite a v).g = s.g := rfl
@[simp] theorem deviceWrite_bankS (s : State) (a v : Word) : (s.deviceWrite a v).bankS = s.bankS := rfl
@[simp] theorem deviceWrite_bankI (s : State) (a v : Word) : (s.deviceWrite a v).bankI = s.bankI := rfl
@[simp] theorem deviceWrite_pc (s : State) (a v : Word) : (s.deviceWrite a v).pc = s.pc := rfl
@[simp] theorem deviceWrite_flags (s : State) (a v : Word) : (s.deviceWrite a v).flags = s.flags := rfl
@[simp] theorem deviceWrite_mcr (s : State) (a v : Word) : (s.deviceWrite a v).mcr = s.mcr := rfl
@[simp] theorem deviceWrite_mem (s : State) (a v : Word) : (s.deviceWrite a v).mem = s.mem := rfl
@[simp] theorem deviceWrite_cfg (s : State) (a v : Word) : (s.deviceWrite a v).cfg = s.cfg := rfl
@[simp] theorem deviceWrite_irqIn (s : State) (a v : Word) : (s.deviceWrite a v).irqIn = s.irqIn := rfl
@[simp] theorem deviceWrite_devIn (s : State) (a v : Word) : (s.deviceWrite a v).devIn = s.devIn := rfl
@[simp] theorem deviceWrite_devLog (s : State) (a v : Word) : (s.deviceWrite a v).devLog = s.devLog ++ [.write a v] := rfl
@[simp] theorem deviceWrite_draws (s : State) (a v : Word) : (s.deviceWrite a v).draws = s.draws := rfl

/-! ### trapEntry -/

@[simp] theorem trapEntry_g (s : State) (v : VecNum) (ret : Word) : (s.trapEntry v ret).g = s.g := rfl
@[simp] theorem trapEntry_bankS (s : State) (v : VecNum) (ret : Word) : (s.trapEntry v ret).bankS = s.bankS := rfl
@[simp] theorem trapEntry_bankI (s : State) (v : VecNum) (ret : Word) : (s.trapEntry v ret).bankI = { s.bankI with lr := ret } := rfl
@[simp] theorem trapEntry_pc (s : State) (v : VecNum) (ret : Word) : (s.trapEntry v ret).pc = vectorAddr s.cfg.vectors v := rfl
@[simp] theorem trapEntry_flags (s : State) (v : VecNum) (ret : Word) : (s.trapEntry v ret).flags = s.flags := rfl
@[simp] theorem trapEntry_mcr (s : State) (v : VecNum) (ret : Word) : (s.trapEntry v ret).mcr = merge trapMask s.mcr ((s.flags &&& nzcvMask) ||| (v.setWidth 32 <<< 3)) := rfl
@[simp] theorem trapEntry_mem (s : State) (v : VecNum) (ret : Word) : (s.trapEntry v ret).mem = s.mem := rfl
@[simp] theorem trapEntry_cfg (s : State) (v : VecNum) (ret : Word) : (s.trapEntry v ret).cfg = s.cfg := rfl
@[simp] theorem trapEntry_irqIn (s : State) (v : VecNum) (ret : Word) : (s.trapEntry v ret).irqIn = s.irqIn := rfl
@[simp] theorem trapEntry_devIn (s : State) (v : VecNum) (ret : Word) : (s.trapEntry v ret).devIn = s.devIn := rfl
@[simp] theorem trapEntry_devLog (s : State) (v : VecNum) (ret : Word) : (s.trapEntry v ret).devLog = s.devLog := rfl
@[simp] theorem trapEntry_draws (s : State) (v : VecNum) (ret : Word) : (s.trapEntry v ret).draws = s.draws := rfl

/-! ### dropIrq -/

@[simp] theorem dropIrq_g (s : State) : s.dropIrq.g = s.g := rfl
@[simp] theorem dropIrq_bankS (s : State) : s.dropIrq.bankS = s.bankS := rfl
@[simp] theorem dropIrq_bankI (s : State) : s.dropIrq.bankI = s.bankI := rfl
@[simp] theorem dropIrq_pc (s : State) : s.dropIrq.pc = s.pc := rfl
@[simp] theorem dropIrq_flags (s : State) : s.dropIrq.flags = s.flags := rfl
@[simp] theorem dropIrq_mcr (s : State) : s.dropIrq.mcr = s.mcr := rfl
@[simp] theorem dropIrq_mem (s : State) : s.dropIrq.mem = s.mem := rfl
@[simp] theorem dropIrq_cfg (s : State) : s.dropIrq.cfg = s.cfg := rfl
@[simp] theorem dropIrq_irqIn (s : State) : s.dropIrq.irqIn = s.irqIn.tail := rfl
@[simp] theorem dropIrq_devIn (s : State) : s.dropIrq.devIn = s.devIn := rfl
@[simp] theorem dropIrq_devLog (s : State) : s.dropIrq.devLog = s.devLog := rfl
@[simp] theorem dropIrq_draws (s : State) : s.dropIrq.draws = s.draws := rfl

/-! ### setBank -/

@[simp] theorem setBank_g (s : State) (m : Mode) (b : BankRegs) : (s.setBank m b).g = s.g := by
  cases m <;> rfl
@[simp] theorem setBank_pc (s : State) (m : Mode) (b : BankRegs) : (s.setBank m b).pc = s.pc := by
  cases m <;> rfl
@[simp] theorem setBank_flags (s : State) (m : Mode) (b : BankRegs) : (s.setBank m b).flags = s.flags := by
  cases m <;> rfl
@[simp] theorem setBank_mcr (s : State) (m : Mode) (b : BankRegs) : (s.setBank m b).mcr = s.mcr := by
  cases m <;> rfl
@[simp] theorem setBank_mem (s : State) (m : Mode) (b : BankRegs) : (s.setBank m b).mem = s.mem := by
  cases m <;> rfl
@[simp] theorem setBank_cfg (s : State) (m : Mode) (b : BankRegs) : (s.setBank m b).cfg = s.cfg := by
  cases m <;> rfl
@[simp] theorem setBank_irqIn (s : State) (m : Mode) (b : BankRegs) : (s.setBank m b).irqIn = s.irqIn := by
  cases m <;> rfl
@[simp] theorem setBank_devIn (s : State) (m : Mode) (b : BankRegs) : (s.setBank m b).devIn = s.devIn := by
  cases m <;> rfl
@[simp] theorem setBank_devLog (s : State) (m : Mode) (b : BankRegs) : (s.setBank m b).devLog = s.devLog := by
  cases m <;> rfl
@[simp] theorem setBank_draws (s : State) (m : Mode) (b : BankRegs) : (s.setBank m b).draws = s.draws := by
  cases m <;> rfl

@[simp] theorem setBank_bank (s : State) (m m' : Mode) (b : BankRegs) :
    (s.setBank m b).bank m' = if m' = m then b else s.bank m' := by
  cases m <;> cases m' <;> rfl

/-! ### writeIn, writeReg, finish: all but the registers and pc is kept -/

@[simp] theorem writeIn_flags (s : State) (m : Mode) (r : Reg) (v : Word) :
    (s.writeIn m r v).flags = s.flags := by
  cases r <;> cases m <;> rfl
@[simp] theorem writeReg_flags (s : State) (r : Reg) (v : Word) : (s.writeReg r v).flags = s.flags :=
  writeIn_flags s s.mode r v
@[simp] theorem finish_flags (s : State) (r : Reg) (v : Word) : (s.finish r v).flags = s.flags :=
  writeReg_flags s.advance r v
@[simp] theorem writeIn_mcr (s : State) (m : Mode) (r : Reg) (v : Word) :
    (s.writeIn m r v).mcr = s.mcr := by
  cases r <;> cases m <;> rfl
@[simp] theorem writeReg_mcr (s : State) (r : Reg) (v : Word) : (s.writeReg r v).mcr = s.mcr :=
  writeIn_mcr s s.mode r v
@[simp] theorem finish_mcr (s : State) (r : Reg) (v : Word) : (s.finish r v).mcr = s.mcr :=
  writeReg_mcr s.advance r v
@[simp] theorem writeIn_mem (s : State) (m : Mode) (r : Reg) (v : Word) :
    (s.writeIn m r v).mem = s.mem := by
  cases r <;> cases m <;> rfl
@[simp] theorem writeReg_mem (s : State) (r : Reg) (v : Word) : (s.writeReg r v).mem = s.mem :=
  writeIn_mem s s.mode r v
@[simp] theorem finish_mem (s : State) (r : Reg) (v : Word) : (s.finish r v).mem = s.mem :=
  writeReg_mem s.advance r v
@[simp] theorem writeIn_cfg (s : State) (m : Mode) (r : Reg) (v : Word) :
    (s.writeIn m r v).cfg = s.cfg := by
  cases r <;> cases m <;> rfl
@[simp] theorem writeReg_cfg (s : State) (r : Reg) (v : Word) : (s.writeReg r v).cfg = s.cfg :=
  writeIn_cfg s s.mode r v
@[simp] theorem finish_cfg (s : State) (r : Reg) (v : Word) : (s.finish r v).cfg = s.cfg :=
  writeReg_cfg s.advance r v
@[simp] theorem writeIn_irqIn (s : State) (m : Mode) (r : Reg) (v : Word) :
    (s.writeIn m r v).irqIn = s.irqIn := by
  cases r <;> cases m <;> rfl
@[simp] theorem writeReg_irqIn (s : State) (r : Reg) (v : Word) : (s.writeReg r v).irqIn = s.irqIn :=
  writeIn_irqIn s s.mode r v
@[simp] theorem finish_irqIn (s : State) (r : Reg) (v : Word) : (s.finish r v).irqIn = s.irqIn :=
  writeReg_irqIn s.advance r v
@[simp] theorem writeIn_devIn (s : State) (m : Mode) (r : Reg) (v : Word) :
    (s.writeIn m r v).devIn = s.devIn := by
  cases r <;> cases m <;> rfl
@[simp] theorem writeReg_devIn (s : State) (r : Reg) (v : Word) : (s.writeReg r v).devIn = s.devIn :=
  writeIn_devIn s s.mode r v
@[simp] theorem finish_devIn (s : State) (r : Reg) (v : Word) : (s.finish r v).devIn = s.devIn :=
  writeReg_devIn s.advance r v
@[simp] theorem writeIn_devLog (s : State) (m : Mode) (r : Reg) (v : Word) :
    (s.writeIn m r v).devLog = s.devLog := by
  cases r <;> cases m <;> rfl
@[simp] theorem writeReg_devLog (s : State) (r : Reg) (v : Word) : (s.writeReg r v).devLog = s.devLog :=
  writeIn_devLog s s.mode r v
@[simp] theorem finish_devLog (s : State) (r : Reg) (v : Word) : (s.finish r v).devLog = s.devLog :=
  writeReg_devLog s.advance r v
@[simp] theorem writeIn_draws (s : State) (m : Mode) (r : Reg) (v : Word) :
    (s.writeIn m r v).draws = s.draws := by
  cases r <;> cases m <;> rfl
@[simp] theorem writeReg_draws (s : State) (r : Reg) (v : Word) : (s.writeReg r v).draws = s.draws :=
  writeIn_draws s s.mode r v
@[simp] theorem finish_draws (s : State) (r : Reg) (v : Word) : (s.finish r v).draws = s.draws :=
  writeReg_draws s.advance r v

@[simp] theorem writeIn_pc (s : State) (m : Mode) (r : Reg) (v : Word) :
    (s.writeIn m r v).pc = if r = .pc then v else s.pc := by
  cases r <;> cases m <;> rfl

/-- R19, R20: the pc an instruction that writes Rd leaves. -/
@[simp] theorem finish_pc (s : State) (r : Reg) (v : Word) :
    (s.finish r v).pc = if r = .pc then v else s.pc + 4 :=
  writeIn_pc s.advance s.mode r v

/-! ### setLogicFlags: only flags and draws change -/

@[simp] theorem setLogicFlags_g (s : State) (r : Word) : (s.setLogicFlags r).g = s.g := by
  unfold State.setLogicFlags
  split <;> rfl
@[simp] theorem setLogicFlags_bankS (s : State) (r : Word) : (s.setLogicFlags r).bankS = s.bankS := by
  unfold State.setLogicFlags
  split <;> rfl
@[simp] theorem setLogicFlags_bankI (s : State) (r : Word) : (s.setLogicFlags r).bankI = s.bankI := by
  unfold State.setLogicFlags
  split <;> rfl
@[simp] theorem setLogicFlags_pc (s : State) (r : Word) : (s.setLogicFlags r).pc = s.pc := by
  unfold State.setLogicFlags
  split <;> rfl
@[simp] theorem setLogicFlags_mcr (s : State) (r : Word) : (s.setLogicFlags r).mcr = s.mcr := by
  unfold State.setLogicFlags
  split <;> rfl
@[simp] theorem setLogicFlags_mem (s : State) (r : Word) : (s.setLogicFlags r).mem = s.mem := by
  unfold State.setLogicFlags
  split <;> rfl
@[simp] theorem setLogicFlags_cfg (s : State) (r : Word) : (s.setLogicFlags r).cfg = s.cfg := by
  unfold State.setLogicFlags
  split <;> rfl
@[simp] theorem setLogicFlags_irqIn (s : State) (r : Word) : (s.setLogicFlags r).irqIn = s.irqIn := by
  unfold State.setLogicFlags
  split <;> rfl
@[simp] theorem setLogicFlags_devIn (s : State) (r : Word) : (s.setLogicFlags r).devIn = s.devIn := by
  unfold State.setLogicFlags
  split <;> rfl
@[simp] theorem setLogicFlags_devLog (s : State) (r : Word) : (s.setLogicFlags r).devLog = s.devLog := by
  unfold State.setLogicFlags
  split <;> rfl

/-! ### deviceRead: only devIn, devLog and draws change -/

@[simp] theorem deviceRead_g (s : State) (a : Word) : (s.deviceRead a).g = s.g := by
  unfold State.deviceRead
  split <;> rfl
@[simp] theorem deviceRead_bankS (s : State) (a : Word) : (s.deviceRead a).bankS = s.bankS := by
  unfold State.deviceRead
  split <;> rfl
@[simp] theorem deviceRead_bankI (s : State) (a : Word) : (s.deviceRead a).bankI = s.bankI := by
  unfold State.deviceRead
  split <;> rfl
@[simp] theorem deviceRead_pc (s : State) (a : Word) : (s.deviceRead a).pc = s.pc := by
  unfold State.deviceRead
  split <;> rfl
@[simp] theorem deviceRead_flags (s : State) (a : Word) : (s.deviceRead a).flags = s.flags := by
  unfold State.deviceRead
  split <;> rfl
@[simp] theorem deviceRead_mcr (s : State) (a : Word) : (s.deviceRead a).mcr = s.mcr := by
  unfold State.deviceRead
  split <;> rfl
@[simp] theorem deviceRead_mem (s : State) (a : Word) : (s.deviceRead a).mem = s.mem := by
  unfold State.deviceRead
  split <;> rfl
@[simp] theorem deviceRead_cfg (s : State) (a : Word) : (s.deviceRead a).cfg = s.cfg := by
  unfold State.deviceRead
  split <;> rfl
@[simp] theorem deviceRead_irqIn (s : State) (a : Word) : (s.deviceRead a).irqIn = s.irqIn := by
  unfold State.deviceRead
  split <;> rfl

@[simp] theorem deviceRead_devLog (s : State) (a : Word) :
    (s.deviceRead a).devLog = s.devLog ++ [.read a s.deviceAnswer] := by
  unfold State.deviceRead State.deviceAnswer
  split <;> simp_all

/-! ### What is read of the fields -/

@[simp] theorem setNzcv_nzcv (s : State) (f : Nzcv) : (s.setNzcv f).nzcv = f := by
  simp [State.nzcv]

/-- The bits of `flags` outside 11:8 are kept by every flag result. -/
theorem setNzcv_reserved (s : State) (f : Nzcv) :
    (s.setNzcv f).flags &&& ~~~nzcvMask = s.flags &&& ~~~nzcvMask :=
  merge_and_not _ _ _

theorem mode_congr {s t : State} (h : t.mcr = s.mcr) : t.mode = s.mode := by
  simp [State.mode, h]

end Sys2Proof.Laws
end

