-- ==== Sys2Proof/Laws/Ops.lean ====
section
/-! SUPPORT. Ops: for each shared operation, once, everything it can do. -/

namespace Sys2Proof.Laws

open Sys2Proof.Machine

/-! ### Registers (R13 to R16) -/

/-- A register just written reads back (pc apart, which reads with its bias). -/
theorem readIn_writeIn_same (s : State) (m : Mode) {r : Reg} (v : Word) (hr : r ≠ .pc) :
    (s.writeIn m r v).readIn m r = v := by
  cases r <;> cases m <;> first | rfl | exact absurd rfl hr

/-- A write leaves every other register of either bank alone. -/
theorem readIn_writeIn_other (s : State) {m m' : Mode} {r r' : Reg} (v : Word) (hr : r' ≠ .pc)
    (h : ¬SameReg m r m' r') : (s.writeIn m r v).readIn m' r' = s.readIn m' r' := by
  cases m <;> cases m' <;> cases r <;> cases r' <;>
    first
    | rfl
    | exact absurd rfl hr
    | exact absurd ⟨rfl, fun _ => rfl⟩ h
    | exact absurd ⟨rfl, fun k => absurd k (by decide)⟩ h

/-- A read depends on the registers, pc and the bias alone. -/
theorem readIn_congr {s t : State} (hg : t.g = s.g) (hs : t.bankS = s.bankS)
    (hi : t.bankI = s.bankI) {m : Mode} {r : Reg} (hr : r ≠ .pc) :
    t.readIn m r = s.readIn m r := by
  cases r <;> cases m <;> simp_all [State.readIn, State.bank]

/-- The end of an instruction that writes Rd, in a state whose registers, mode, pc, memory and environment are those of `s`. -/
theorem finish_writesReg {s u : State} (rd : Reg) (v : Word) (hg : u.g = s.g)
    (hs : u.bankS = s.bankS) (hi : u.bankI = s.bankI) (hpc : u.pc = s.pc) (hmcr : u.mcr = s.mcr)
    (hmem : u.mem = s.mem) (henv : EnvKept s u) :
    WritesReg s.mode rd v s (u.finish rd v) := by
  have hm : u.advance.mode = s.mode := mode_congr hmcr
  refine ⟨by simp [hpc], fun h => ?_, fun m' r' hr' hne => ?_, by simp [hmcr], fun a => by simp [hmem],
    by simpa [EnvKept] using henv⟩
  · rw [← hm]
    exact readIn_writeIn_same u.advance _ v h
  · rw [← hm] at hne
    exact (readIn_writeIn_other u.advance v hr' hne).trans
      (readIn_congr (t := u.advance) hg hs hi hr')

/-! ### Memory and devices -/

theorem aligned_iff (a : Word) : aligned a = true ↔ a.toNat % 4 = 0 := by
  simp only [aligned, beq_iff_eq, ← BitVec.toNat_inj, BitVec.extractLsb'_toNat]
  simp

/-- An aligned word lies below the top of the address space. -/
theorem aligned_bound {a : Word} (h : aligned a = true) : a.toNat + 3 < 2 ^ 32 := by
  have := (aligned_iff a).mp h
  have := a.isLt
  omega

/-- A read that answers: from RAM it changes nothing; from a device it uses up the answer and is recorded. -/
theorem memRead_cases {s t : State} {a v : Word} (h : s.memRead a = .ok (v, t)) :
    (kindAt s.cfg.memMap a = .ram ∧ v = Memory.word s.cfg.endian s.mem a.toNat ∧ t = s) ∨
    (kindAt s.cfg.memMap a = .device ∧ v = s.deviceAnswer ∧ t = s.deviceRead a) := by
  unfold State.memRead at h
  split at h
  · next hk => cases h; exact .inl ⟨hk, rfl, rfl⟩
  · next hk => cases h; exact .inr ⟨hk, rfl, rfl⟩
  · cases h

/-- A write that answers: RAM gets the word; a device write is recorded. -/
theorem memWrite_cases {s t : State} {a v : Word} (h : s.memWrite a v = .ok t) :
    (kindAt s.cfg.memMap a = .ram ∧
      t = { s with mem := Memory.setWord s.cfg.endian s.mem a.toNat v }) ∨
    (kindAt s.cfg.memMap a = .device ∧ t = s.deviceWrite a v) := by
  unfold State.memWrite at h
  split at h
  · next hk => cases h; exact .inl ⟨hk, rfl⟩
  · next hk => cases h; exact .inr ⟨hk, rfl⟩
  · cases h

theorem loadData_cases {s t : State} {a v : Word} (h : s.loadData a = .ok (v, t)) :
    aligned a = true ∧ s.memRead a = .ok (v, t) := by
  unfold State.loadData at h
  split at h
  · next ha => exact ⟨ha, h⟩
  · cases h

theorem storeData_cases {s t : State} {a v : Word} (h : s.storeData a v = .ok t) :
    aligned a = true ∧ s.memWrite a v = .ok t := by
  unfold State.storeData at h
  split at h
  · next ha => exact ⟨ha, h⟩
  · cases h

theorem fetch_cases {s t : State} {w : Word} (h : s.fetch = .ok (w, t)) :
    aligned s.pc = true ∧ s.memRead s.pc = .ok (w, t) := by
  unfold State.fetch at h
  split at h
  · next ha => exact ⟨ha, h⟩
  · cases h

/-- A load that completes. -/
theorem loadInto_next {s t : State} {rd : Reg} {ea : Word} (h : loadInto s rd ea = .next t) :
    ∃ v u, s.loadData ea = .ok (v, u) ∧ t = u.finish rd v := by
  unfold loadInto at h
  split at h
  · next v u hl => cases h; exact ⟨v, u, hl, rfl⟩
  · cases h

/-- A store that completes. -/
theorem storeFrom_next {s t : State} {rd : Reg} {ea : Word} (h : storeFrom s rd ea = .next t) :
    ∃ u, s.storeData ea (s.readReg rd) = .ok u ∧ t = u.advance := by
  unfold storeFrom at h
  split at h
  · next u hl => cases h; exact ⟨u, hl, rfl⟩
  · cases h

/-- An arithmetic result always completes. -/
theorem arithResult_next {s t : State} {rd : Reg} {x : Word × Nzcv}
    (h : arithResult s rd x = .next t) : t = (s.setNzcv x.2).finish rd x.1 := by
  cases h; rfl

/-- A logical result always completes. -/
theorem logicResult_next {s t : State} {rd : Reg} {r : Word} (h : logicResult s rd r = .next t) :
    t = (s.setLogicFlags r).finish rd r := by
  cases h; rfl

/-! ### Flags -/

/-- The flags a logical result leaves. -/
theorem setLogicFlags_becomes (s : State) (r : Word) :
    ∃ f, FlagsBecome s (s.setLogicFlags r) f ∧ LogicSpec s.cfg.logicCV s.nzcv r f := by
  unfold State.setLogicFlags
  split <;> rename_i hcv <;> rw [hcv] <;>
    exact ⟨_, ⟨setNzcv_nzcv _ _, setNzcv_reserved _ _⟩, rfl, by simp [logicNzcv],
      by simp [logicNzcv]⟩

/-! ### Banked MOVs (R16) -/

/-- A banked read that answers. -/
theorem readBanked_cases {s t : State} {k : Bank} {r : Reg} {v : Word}
    (h : s.readBanked k r = .ok (v, t)) :
    (k = .supervisor ∧ v = s.readIn .sup r ∧ t = s) ∨
    (k = .interrupt ∧ v = s.readIn .irq r ∧ t = s) ∨
    (k = .bank3 ∧ r = .r0 ∧ v = merge nzcvMask (Config.anyWord s.draws) s.flags ∧ t = s.drawOne) ∨
    (k = .bank3 ∧ r = .r1 ∧ v = merge mcrNamedMask (Config.anyWord s.draws) s.mcr ∧
      t = s.drawOne) := by
  cases k with
  | reserved => cases h
  | supervisor => cases h; simp
  | interrupt => cases h; simp
  | bank3 => cases r <;> cases h <;> simp

/-- A banked write that answers. -/
theorem writeBanked_cases {s t : State} {k : Bank} {r : Reg} {v : Word}
    (h : s.writeBanked k r v = .ok t) :
    (k = .supervisor ∧ t = s.writeIn .sup r v) ∨
    (k = .interrupt ∧ t = s.writeIn .irq r v) ∨
    (k = .bank3 ∧ r = .r0 ∧ t = s.writeFlags v) ∨
    (k = .bank3 ∧ r = .r1 ∧ t = s.writeMcr v) := by
  cases k with
  | reserved => cases h
  | supervisor => cases h; simp
  | interrupt => cases h; simp
  | bank3 => cases r <;> cases h <;> simp

/-! ### Steps -/

/-- A step that answers a next state: an interrupt was taken, or an instruction ran. -/
theorem step_cases {s t : State} (h : step s = .next t) :
    (s.debugOn = false ∧ ∃ v, s.acceptedIrq = some v ∧ t = s.dropIrq.trapEntry v s.pc) ∨
    (∃ i u, Runs s i u ∧ exec i u = .next t) := by
  unfold step cycle at h
  split at h
  · cases h
  · next hd =>
    have hd' : s.debugOn = false := by simpa using hd
    split at h
    · next v hv => cases h; exact .inl ⟨hd', v, hv, rfl⟩
    · next hv =>
      unfold runInstr at h
      split at h
      · cases h
      · next w u hf =>
        split at h
        · cases h
        · next i hi => exact .inr ⟨i, u, ⟨hd', hv, w, hf, hi⟩, h⟩

/-- What the fetch of a running instruction leaves as it was. -/
theorem runs_state {s u : State} {i : Instr} (h : Runs s i u) :
    u = s.dropIrq ∨ u = s.dropIrq.deviceRead s.pc := by
  obtain ⟨_, _, w, hf, _⟩ := h
  rcases memRead_cases (fetch_cases hf).2 with ⟨_, _, rfl⟩ | ⟨_, _, rfl⟩
  · exact .inl rfl
  · exact .inr rfl

end Sys2Proof.Laws
end

