-- ==== Sys2Proof/Laws/Exec.lean ====
section
/-! SUPPORT. Exec: once for every instruction, what it can change: the one inversion lemma that claims about all instructions, and about steps, are derived from. -/

namespace Sys2Proof.Laws

open Sys2Proof.Machine

/-- What executing `i` in `s` can do to each part of the state, but for pc and the registers of the current view. -/
structure ExecFrame (i : Instr) (s t : State) : Prop where
  cfg : t.cfg = s.cfg
  irqIn : t.irqIn = s.irqIn
  mem : t.mem = s.mem ∨ ∃ ea, storeAddress s i = some ea ∧ aligned ea = true ∧
    ∃ v, t.mem = Memory.setWord s.cfg.endian s.mem ea.toNat v
  flags : t.flags = s.flags ∨ (writesFlags i = true ∧ ∃ v, t.flags = merge nzcvMask s.flags v)
  mcr : t.mcr = s.mcr ∨ (∃ imm, i = .int imm ∧ ∃ v ret, t.mcr = (s.trapEntry v ret).mcr) ∨
    ∃ rm, i = .movWb .bank3 .r1 rm ∧ t.mcr = merge mcrNamedMask s.mcr (s.readReg rm)
  bankS : t.bankS = s.bankS ∨ s.mode = .sup ∨
    ∃ rd rm, i = .movWb .supervisor rd rm ∧ isBanked rd = true
  devLog : t.devLog = s.devLog ∨ ∃ e, t.devLog = s.devLog ++ [e]

/-- A write through the view of IRQ mode leaves the supervisor bank alone. -/
theorem writeIn_irq_bankS (s : State) (r : Reg) (v : Word) : (s.writeIn .irq r v).bankS = s.bankS := by
  cases r <;> rfl

/-- A write to a register that has one copy leaves both banks alone. -/
theorem writeIn_shared_bankS (s : State) (m : Mode) {r : Reg} (v : Word) (h : isBanked r = false) :
    (s.writeIn m r v).bankS = s.bankS := by
  cases r <;> cases m <;> first | rfl | exact absurd h (by decide)

/-- The end of an instruction that writes Rd leaves the supervisor bank alone in IRQ mode. -/
theorem finish_bankS (s : State) (rd : Reg) (v : Word) :
    (s.finish rd v).bankS = s.bankS ∨ s.mode = .sup := by
  have hm : s.advance.mode = s.mode := mode_congr rfl
  cases h : s.mode with
  | sup => exact .inr rfl
  | irq =>
    rw [← hm] at h
    left
    simp [State.finish, State.writeReg, h, writeIn_irq_bankS]

/-- An instruction that, after changes `u` to flags, devices and free values alone, writes Rd. -/
theorem frame_finish {i : Instr} {s u : State} (rd : Reg) (v : Word) (hS : u.bankS = s.bankS)
    (hcfg : u.cfg = s.cfg) (hirq : u.irqIn = s.irqIn) (hmem : u.mem = s.mem) (hmcr : u.mcr = s.mcr)
    (hf : u.flags = s.flags ∨ (writesFlags i = true ∧ ∃ w, u.flags = merge nzcvMask s.flags w))
    (hd : u.devLog = s.devLog ∨ ∃ e, u.devLog = s.devLog ++ [e]) :
    ExecFrame i s (u.finish rd v) where
  cfg := by simpa using hcfg
  irqIn := by simpa using hirq
  mem := .inl (by simpa using hmem)
  flags := by simpa using hf
  mcr := .inl (by simpa using hmcr)
  bankS := by
    rcases finish_bankS u rd v with h | h
    · exact .inl (h.trans hS)
    · exact .inr (.inl ((mode_congr hmcr).symm.trans h))
  devLog := by simpa using hd

theorem frame_arith {i : Instr} {s t : State} {rd : Reg} {x : Word × Nzcv}
    (hi : writesFlags i = true) (h : arithResult s rd x = .next t) : ExecFrame i s t := by
  rw [arithResult_next h]
  exact frame_finish rd x.1 rfl rfl rfl rfl rfl (.inr ⟨hi, _, rfl⟩) (.inl rfl)

/-- The flags a logical result leaves are a merge into the four flag bits. -/
theorem setLogicFlags_flags (s : State) (r : Word) :
    ∃ w, (s.setLogicFlags r).flags = merge nzcvMask s.flags w := by
  unfold State.setLogicFlags
  split <;> exact ⟨_, rfl⟩

theorem frame_logic {i : Instr} {s t : State} {rd : Reg} {r : Word}
    (hi : writesFlags i = true) (h : logicResult s rd r = .next t) : ExecFrame i s t := by
  rw [logicResult_next h]
  exact frame_finish rd r (by simp) (by simp) (by simp) (by simp) (by simp)
    (.inr ⟨hi, setLogicFlags_flags s r⟩) (by simp)

/-- An instruction that changes flags and pc alone. -/
theorem frame_flags {i : Instr} {s u : State} (hS : u.bankS = s.bankS) (hcfg : u.cfg = s.cfg)
    (hirq : u.irqIn = s.irqIn) (hmem : u.mem = s.mem) (hmcr : u.mcr = s.mcr)
    (hf : u.flags = s.flags ∨ (writesFlags i = true ∧ ∃ w, u.flags = merge nzcvMask s.flags w))
    (hd : u.devLog = s.devLog) : ExecFrame i s u.advance where
  cfg := hcfg
  irqIn := hirq
  mem := .inl hmem
  flags := hf
  mcr := .inl hmcr
  bankS := .inl hS
  devLog := .inl hd

theorem frame_load {i : Instr} {s t : State} {rd : Reg} {ea : Word}
    (h : loadInto s rd ea = .next t) : ExecFrame i s t := by
  obtain ⟨v, u, hl, rfl⟩ := loadInto_next h
  rcases memRead_cases (loadData_cases hl).2 with ⟨_, _, rfl⟩ | ⟨_, _, rfl⟩
  · exact frame_finish rd v rfl rfl rfl rfl rfl (.inl rfl) (.inl rfl)
  · exact frame_finish rd v (by simp) (by simp) (by simp) (by simp) (by simp) (.inl (by simp))
      (.inr ⟨_, deviceRead_devLog s ea⟩)

theorem frame_store {i : Instr} {s t : State} {rd : Reg} {ea : Word}
    (hi : storeAddress s i = some ea) (h : storeFrom s rd ea = .next t) : ExecFrame i s t := by
  obtain ⟨u, hs, rfl⟩ := storeFrom_next h
  obtain ⟨ha, hw⟩ := storeData_cases hs
  rcases memWrite_cases hw with ⟨_, rfl⟩ | ⟨_, rfl⟩
  · exact ⟨rfl, rfl, .inr ⟨ea, hi, ha, _, rfl⟩, .inl rfl, .inl rfl, .inl rfl, .inl rfl⟩
  · exact ⟨rfl, rfl, .inl rfl, .inl rfl, .inl rfl, .inl rfl, .inr ⟨_, rfl⟩⟩

theorem frame_movRb {s t : State} {rd : Reg} {k : Bank} {rm : Reg}
    (h : execMovRb rd k rm s = .next t) : ExecFrame (.movRb rd k rm) s t := by
  unfold execMovRb at h
  split at h
  · next v u hr =>
    cases h
    rcases readBanked_cases hr with ⟨_, _, rfl⟩ | ⟨_, _, rfl⟩ | ⟨_, _, _, rfl⟩ | ⟨_, _, _, rfl⟩ <;>
      exact frame_finish rd v rfl rfl rfl rfl rfl (.inl rfl) (.inl rfl)
  · cases h

theorem frame_movWb {s t : State} {rd : Reg} {k : Bank} {rm : Reg}
    (h : execMovWb k rd rm s = .next t) : ExecFrame (.movWb k rd rm) s t := by
  unfold execMovWb at h
  split at h
  · next u hw =>
    cases h
    rcases writeBanked_cases hw with ⟨rfl, rfl⟩ | ⟨rfl, rfl⟩ | ⟨rfl, rfl, rfl⟩ | ⟨rfl, rfl, rfl⟩
    · refine ⟨by simp, by simp, .inl (by simp), .inl (by simp), .inl (by simp), ?_, .inl (by simp)⟩
      cases hb : isBanked rd with
      | true => exact .inr (.inr ⟨rd, rm, rfl, hb⟩)
      | false => exact .inl (writeIn_shared_bankS s.advance .sup _ hb)
    · exact ⟨by simp, by simp, .inl (by simp), .inl (by simp), .inl (by simp),
        .inl (writeIn_irq_bankS s.advance rd _), .inl (by simp)⟩
    · exact ⟨rfl, rfl, .inl rfl, .inr ⟨rfl, _, rfl⟩, .inl rfl, .inl rfl, .inl rfl⟩
    · exact ⟨rfl, rfl, .inl rfl, .inl rfl, .inr (.inr ⟨rm, rfl, rfl⟩), .inl rfl, .inl rfl⟩
  · cases h

theorem frame_trap {s : State} (imm : Half) (v : VecNum) (ret : Word) :
    ExecFrame (.int imm) s (s.trapEntry v ret) :=
  ⟨rfl, rfl, .inl rfl, .inl rfl, .inr (.inl ⟨imm, rfl, v, ret, rfl⟩), .inl rfl, .inl rfl⟩

theorem frame_pc {i : Instr} {s : State} (target : Word) : ExecFrame i s (s.setPc target) :=
  ⟨rfl, rfl, .inl rfl, .inl rfl, .inl rfl, .inl rfl, .inl rfl⟩

theorem frame_int {s t : State} {imm : Half} (h : execInt imm s = .next t) :
    ExecFrame (.int imm) s t := by
  unfold execInt at h
  split at h
  · cases h
  · split at h
    · cases h; exact frame_trap ..
    · split at h
      · cases h
      · cases h; exact frame_trap ..
      · cases h; exact frame_pc ..
      · cases h
        split
        · exact frame_trap ..
        · exact frame_pc ..

theorem frame_b {i : Instr} {s t : State} {c : BitVec 4} {imm : Half}
    (h : execB c imm s = .next t) : ExecFrame i s t := by
  unfold execB at h
  split at h
  · cases h
  · split at h
    · cases h; exact frame_pc ..
    · cases h; exact frame_pc ..

theorem frame_bl {i : Instr} {s t : State} {c : BitVec 4} {imm : Half}
    (h : execBl c imm s = .next t) : ExecFrame i s t := by
  unfold execBl at h
  split at h
  · cases h
  · split at h
    · cases h
      refine ⟨by simp, by simp, .inl (by simp), .inl (by simp), .inl (by simp), ?_, .inl (by simp)⟩
      cases hm : s.mode with
      | sup => exact .inr (.inl rfl)
      | irq =>
        left
        simp [State.writeReg, hm, writeIn_irq_bankS]
    · cases h; exact frame_pc ..

/-- Every instruction, whatever its form: what it can change when it answers a next state. -/
theorem exec_frame {i : Instr} {s t : State} (h : exec i s = .next t) : ExecFrame i s t := by
  cases i with
  | ldrA | ldrI | ldrR => exact frame_load h
  | strA | strI | strR => exact frame_store rfl h
  | movI | movR | movtI =>
    cases h
    exact frame_finish _ _ rfl rfl rfl rfl rfl (.inl rfl) (.inl rfl)
  | movRb => exact frame_movRb h
  | movWb => exact frame_movWb h
  | addI | addR | addcI | addcR | subI | subR | subcI | subcR => exact frame_arith rfl h
  | rsubI | rsubR | rsubcI | rsubcR => exact frame_arith rfl h
  | andI | andR | bicI | bicR | orI | orR | xorI | xorR => exact frame_logic rfl h
  | cmpI | cmpR =>
    cases h
    exact frame_flags rfl rfl rfl rfl rfl (.inr ⟨rfl, _, rfl⟩) rfl
  | tstI | tstR =>
    cases h
    exact frame_flags (by simp) (by simp) (by simp) (by simp) (by simp)
      (.inr ⟨rfl, setLogicFlags_flags s _⟩) (by simp)
  | b => exact frame_b h
  | bl => exact frame_bl h
  | int => exact frame_int h

end Sys2Proof.Laws
end

