-- ==== Sys2Proof/Laws/PerInstr.lean ====
section
/-! SUPPORT. PerInstr: the family OpcodeByte, a fact about every instruction as syntax: the word of an instruction carries the opcode byte of its form (R62, R70). -/

namespace Sys2Proof.Laws.OpcodeByte

/-- The opcode byte of the encoded instruction is that of its form, under any opcode map. -/
def Statement (i : Instr) : Prop := ∀ opc, opcodeField (encode opc i) = opcodeOf opc i.form

theorem ldrA (rd : Reg) (imm : Half) : Statement (.ldrA rd imm) :=
  fun _ => opcodeField_iType _ _ _ _

theorem ldrI (rd rm : Reg) (imm : Half) : Statement (.ldrI rd rm imm) :=
  fun _ => opcodeField_iType _ _ _ _

theorem ldrR (rd rm : Reg) (op2 : Shifted) : Statement (.ldrR rd rm op2) :=
  fun _ => opcodeField_rType _ _ _ _ _ _ _

theorem strA (rd : Reg) (imm : Half) : Statement (.strA rd imm) :=
  fun _ => opcodeField_iType _ _ _ _

theorem strI (rd rm : Reg) (imm : Half) : Statement (.strI rd rm imm) :=
  fun _ => opcodeField_iType _ _ _ _

theorem strR (rd rm : Reg) (op2 : Shifted) : Statement (.strR rd rm op2) :=
  fun _ => opcodeField_rType _ _ _ _ _ _ _

theorem movI (rd : Reg) (imm : Half) : Statement (.movI rd imm) :=
  fun _ => opcodeField_iType _ _ _ _

theorem movR (rd : Reg) (op2 : Shifted) : Statement (.movR rd op2) :=
  fun _ => opcodeField_rType _ _ _ _ _ _ _

theorem movtI (rd : Reg) (imm : Half) : Statement (.movtI rd imm) :=
  fun _ => opcodeField_iType _ _ _ _

theorem movRb (rd : Reg) (bank : Bank) (rm : Reg) : Statement (.movRb rd bank rm) :=
  fun _ => opcodeField_rType _ _ _ _ _ _ _

theorem movWb (bank : Bank) (rd rm : Reg) : Statement (.movWb bank rd rm) :=
  fun _ => opcodeField_rType _ _ _ _ _ _ _

theorem addI (rd rm : Reg) (imm : Half) : Statement (.addI rd rm imm) :=
  fun _ => opcodeField_iType _ _ _ _

theorem addR (rd rm : Reg) (op2 : Shifted) : Statement (.addR rd rm op2) :=
  fun _ => opcodeField_rType _ _ _ _ _ _ _

theorem addcI (rd rm : Reg) (imm : Half) : Statement (.addcI rd rm imm) :=
  fun _ => opcodeField_iType _ _ _ _

theorem addcR (rd rm : Reg) (op2 : Shifted) : Statement (.addcR rd rm op2) :=
  fun _ => opcodeField_rType _ _ _ _ _ _ _

theorem subI (rd rm : Reg) (imm : Half) : Statement (.subI rd rm imm) :=
  fun _ => opcodeField_iType _ _ _ _

theorem subR (rd rm : Reg) (op2 : Shifted) : Statement (.subR rd rm op2) :=
  fun _ => opcodeField_rType _ _ _ _ _ _ _

theorem subcI (rd rm : Reg) (imm : Half) : Statement (.subcI rd rm imm) :=
  fun _ => opcodeField_iType _ _ _ _

theorem subcR (rd rm : Reg) (op2 : Shifted) : Statement (.subcR rd rm op2) :=
  fun _ => opcodeField_rType _ _ _ _ _ _ _

theorem rsubI (rd rm : Reg) (imm : Half) : Statement (.rsubI rd rm imm) :=
  fun _ => opcodeField_iType _ _ _ _

theorem rsubR (rd rm : Reg) (op2 : Shifted) : Statement (.rsubR rd rm op2) :=
  fun _ => opcodeField_rType _ _ _ _ _ _ _

theorem rsubcI (rd rm : Reg) (imm : Half) : Statement (.rsubcI rd rm imm) :=
  fun _ => opcodeField_iType _ _ _ _

theorem rsubcR (rd rm : Reg) (op2 : Shifted) : Statement (.rsubcR rd rm op2) :=
  fun _ => opcodeField_rType _ _ _ _ _ _ _

theorem andI (rd rm : Reg) (imm : Half) : Statement (.andI rd rm imm) :=
  fun _ => opcodeField_iType _ _ _ _

theorem andR (rd rm : Reg) (op2 : Shifted) : Statement (.andR rd rm op2) :=
  fun _ => opcodeField_rType _ _ _ _ _ _ _

theorem bicI (rd rm : Reg) (imm : Half) : Statement (.bicI rd rm imm) :=
  fun _ => opcodeField_iType _ _ _ _

theorem bicR (rd rm : Reg) (op2 : Shifted) : Statement (.bicR rd rm op2) :=
  fun _ => opcodeField_rType _ _ _ _ _ _ _

theorem orI (rd rm : Reg) (imm : Half) : Statement (.orI rd rm imm) :=
  fun _ => opcodeField_iType _ _ _ _

theorem orR (rd rm : Reg) (op2 : Shifted) : Statement (.orR rd rm op2) :=
  fun _ => opcodeField_rType _ _ _ _ _ _ _

theorem xorI (rd rm : Reg) (imm : Half) : Statement (.xorI rd rm imm) :=
  fun _ => opcodeField_iType _ _ _ _

theorem xorR (rd rm : Reg) (op2 : Shifted) : Statement (.xorR rd rm op2) :=
  fun _ => opcodeField_rType _ _ _ _ _ _ _

theorem cmpI (rm : Reg) (imm : Half) : Statement (.cmpI rm imm) :=
  fun _ => opcodeField_iType _ _ _ _

theorem cmpR (rm : Reg) (op2 : Shifted) : Statement (.cmpR rm op2) :=
  fun _ => opcodeField_rType _ _ _ _ _ _ _

theorem tstI (rm : Reg) (imm : Half) : Statement (.tstI rm imm) :=
  fun _ => opcodeField_iType _ _ _ _

theorem tstR (rm : Reg) (op2 : Shifted) : Statement (.tstR rm op2) :=
  fun _ => opcodeField_rType _ _ _ _ _ _ _

theorem b (cond : BitVec 4) (imm : Half) : Statement (.b cond imm) :=
  fun _ => opcodeField_iType _ _ _ _

theorem bl (cond : BitVec 4) (imm : Half) : Statement (.bl cond imm) :=
  fun _ => opcodeField_iType _ _ _ _

theorem int (imm : Half) : Statement (.int imm) :=
  fun _ => opcodeField_iType _ _ _ _

end Sys2Proof.Laws.OpcodeByte
end

