-- ==== Sys2Proof/WellFormed.lean ====
section
/-! DEFINITION. WellFormed: the instructions with no reserved value in a used field (R77). -/

namespace Sys2Proof

/-- A register number that bank `k` has: any in banks 01 and 10, only 0 and 1 in bank 3, none in bank 00 (R16, R35). -/
def bankHas (k : Bank) (r : Reg) : Bool :=
  match k with
  | .reserved => false
  | .supervisor => true
  | .interrupt => true
  | .bank3 => decide (r = .r0) || decide (r = .r1)

/-- No used field holds a reserved value (R77): the bank and the bank 3 register of a banked MOV, the condition number of a branch, `imm16[15:5]` of INT. -/
def Instr.wellFormed (cond : CondMap) : Instr → Bool
  | .movRb _ bank rm => bankHas bank rm
  | .movWb bank rd _ => bankHas bank rd
  | .b c _ => (condOf cond c).isSome
  | .bl c _ => (condOf cond c).isSome
  | .int imm => imm.extractLsb' 5 11 == 0
  | _ => true

end Sys2Proof
end

