-- ==== Sys2Proof/Tests/Slice0.lean ====
section
/-! SUPPORT. Tests: the well-formedness checks refuse; every form decodes from a word written out by its fields; one step of every instruction on values of `95_test_vectors.md` (the row is named beside each test); and for every obligation with hypotheses, values that meet them all. -/

namespace Sys2Proof.Tests

open Sys2Proof.Machine

-- one theorem after the other: some two hundred small ones at once would each hold a thread
set_option Elab.async false

/-! ### WellFormed: one ill-formed term per check (R77) -/

theorem test_wf_reserved_bank_read :
    (Instr.movRb .r1 .reserved .r0).wellFormed standardCond = false := by decide
theorem test_wf_reserved_bank_write :
    (Instr.movWb .reserved .r0 .r1).wellFormed standardCond = false := by decide
theorem test_wf_bank3_read_of_register_2 :
    (Instr.movRb .r1 .bank3 .r2).wellFormed standardCond = false := by decide
theorem test_wf_bank3_write_of_register_15 :
    (Instr.movWb .bank3 .pc .r1).wellFormed standardCond = false := by decide
theorem test_wf_reserved_condition_b : (Instr.b 15 0).wellFormed standardCond = false := by decide
theorem test_wf_reserved_condition_bl : (Instr.bl 15 0).wellFormed standardCond = false := by decide
theorem test_wf_vector_32 : (Instr.int 32).wellFormed standardCond = false := by decide
theorem test_wf_accepts :
    ([.movRb .r1 .bank3 .r1, .movWb .supervisor .pc .r2, .b 14 0, .int 31] : List Instr).all
      (Instr.wellFormed standardCond) = true := by decide

/-! ### Decoding: every form, from the fields of the formats (R63, R65) and the opcode of R72.
I-type: opcode, rd, rm, imm16. R-type: opcode, rd, rm, rn, sh, dir, bank, reserved. -/

theorem test_decode_ldrA :
    decode standardOpc 0b00000000_0001_0000_0000000100000000 = .ok (.ldrA .r1 0x0100) := by decide
theorem test_decode_ldrI :
    decode standardOpc 0b00000010_0010_0011_0000000000001000 = .ok (.ldrI .r2 .r3 8) := by decide
theorem test_decode_ldrR :
    decode standardOpc 0b00000011_0010_0011_0100_00010_00_00_000 =
      .ok (.ldrR .r2 .r3 { rn := .r4, sh := 2, dir := .shl }) := by decide
theorem test_decode_strA :
    decode standardOpc 0b00100000_0001_0000_0000000100000100 = .ok (.strA .r1 0x0104) := by decide
theorem test_decode_strI :
    decode standardOpc 0b00100010_0010_0011_1111111111111100 =
      .ok (.strI .r2 .r3 0xFFFC) := by decide
theorem test_decode_strR :
    decode standardOpc 0b00100011_0010_0011_0011_00000_00_00_000 =
      .ok (.strR .r2 .r3 { rn := .r3, sh := 0, dir := .shl }) := by decide
theorem test_decode_movI :
    decode standardOpc 0b01000000_0001_0000_1111111111111110 = .ok (.movI .r1 0xFFFE) := by decide
theorem test_decode_movR :
    decode standardOpc 0b01000001_0001_0000_0010_00100_01_00_000 =
      .ok (.movR .r1 { rn := .r2, sh := 4, dir := .shr }) := by decide
theorem test_decode_movtI :
    decode standardOpc 0b01000010_0001_0000_0001001000110100 = .ok (.movtI .r1 0x1234) := by decide
theorem test_decode_movRb :
    decode standardOpc 0b01000011_0000_1110_0000_00000_00_10_000 =
      .ok (.movRb .r0 .interrupt .lr) := by decide
theorem test_decode_movWb :
    decode standardOpc 0b01000101_0001_0010_0000_00000_00_11_000 =
      .ok (.movWb .bank3 .r1 .r2) := by decide
theorem test_decode_addI :
    decode standardOpc 0b01100000_1110_1111_0000000000001000 = .ok (.addI .lr .pc 8) := by decide
theorem test_decode_addR :
    decode standardOpc 0b01100001_0001_0010_0011_00001_00_00_000 =
      .ok (.addR .r1 .r2 { rn := .r3, sh := 1, dir := .shl }) := by decide
theorem test_decode_addcI :
    decode standardOpc 0b01100010_0001_0010_0000000000000000 = .ok (.addcI .r1 .r2 0) := by decide
theorem test_decode_addcR :
    decode standardOpc 0b01100011_0001_0010_0011_00000_00_00_000 =
      .ok (.addcR .r1 .r2 { rn := .r3, sh := 0, dir := .shl }) := by decide
theorem test_decode_subI :
    decode standardOpc 0b01100100_0001_0010_1111111111111111 =
      .ok (.subI .r1 .r2 0xFFFF) := by decide
theorem test_decode_subR :
    decode standardOpc 0b01100101_0001_0010_0011_00000_00_00_000 =
      .ok (.subR .r1 .r2 { rn := .r3, sh := 0, dir := .shl }) := by decide
theorem test_decode_subcI :
    decode standardOpc 0b01100110_0001_0010_0000000000000000 = .ok (.subcI .r1 .r2 0) := by decide
theorem test_decode_subcR :
    decode standardOpc 0b01100111_0001_0010_0011_11111_11_00_000 =
      .ok (.subcR .r1 .r2 { rn := .r3, sh := 31, dir := .ror }) := by decide
theorem test_decode_rsubI :
    decode standardOpc 0b01101000_0001_0010_0000000000000000 = .ok (.rsubI .r1 .r2 0) := by decide
theorem test_decode_rsubR :
    decode standardOpc 0b01101001_0001_0010_0011_00000_00_00_000 =
      .ok (.rsubR .r1 .r2 { rn := .r3, sh := 0, dir := .shl }) := by decide
theorem test_decode_rsubcI :
    decode standardOpc 0b01101010_0001_0010_0000000000001010 = .ok (.rsubcI .r1 .r2 10) := by decide
theorem test_decode_rsubcR :
    decode standardOpc 0b01101011_0001_0010_0011_00100_00_00_000 =
      .ok (.rsubcR .r1 .r2 { rn := .r3, sh := 4, dir := .shl }) := by decide
theorem test_decode_andI :
    decode standardOpc 0b10000000_0001_0010_1111111100000000 =
      .ok (.andI .r1 .r2 0xFF00) := by decide
theorem test_decode_andR :
    decode standardOpc 0b10000001_0001_0010_0011_01000_11_00_000 =
      .ok (.andR .r1 .r2 { rn := .r3, sh := 8, dir := .ror }) := by decide
theorem test_decode_bicI :
    decode standardOpc 0b10000010_0001_0010_1000000000000000 =
      .ok (.bicI .r1 .r2 0x8000) := by decide
theorem test_decode_bicR :
    decode standardOpc 0b10000011_0001_0010_0011_11100_00_00_000 =
      .ok (.bicR .r1 .r2 { rn := .r3, sh := 28, dir := .shl }) := by decide
theorem test_decode_orI :
    decode standardOpc 0b10000100_0001_0010_1000000000000000 =
      .ok (.orI .r1 .r2 0x8000) := by decide
theorem test_decode_orR :
    decode standardOpc 0b10000101_0001_0010_0011_10000_01_00_000 =
      .ok (.orR .r1 .r2 { rn := .r3, sh := 16, dir := .shr }) := by decide
theorem test_decode_xorI :
    decode standardOpc 0b10000110_0001_0010_0000000011111111 =
      .ok (.xorI .r1 .r2 0x00FF) := by decide
theorem test_decode_xorR :
    decode standardOpc 0b10000111_0001_0010_0011_11111_10_00_000 =
      .ok (.xorR .r1 .r2 { rn := .r3, sh := 31, dir := .srx }) := by decide
theorem test_decode_cmpI :
    decode standardOpc 0b10100000_0000_0010_0000000000000101 = .ok (.cmpI .r2 5) := by decide
theorem test_decode_cmpR_ignores_rd :
    decode standardOpc 0b10100001_0111_0010_0011_00000_00_00_000 =
      .ok (.cmpR .r2 { rn := .r3, sh := 0, dir := .shl }) := by decide
theorem test_decode_tstI :
    decode standardOpc 0b10100010_0000_0010_1000000000000000 = .ok (.tstI .r2 0x8000) := by decide
theorem test_decode_tstR :
    decode standardOpc 0b10100011_0000_0010_0011_11111_10_00_000 =
      .ok (.tstR .r2 { rn := .r3, sh := 31, dir := .srx }) := by decide
theorem test_decode_b_ignores_rm :
    decode standardOpc 0b11000000_1110_0101_0000000000010000 = .ok (.b 14 16) := by decide
theorem test_decode_bl :
    decode standardOpc 0b11000010_1011_0000_0000000001000000 = .ok (.bl 11 0x40) := by decide
theorem test_decode_int_ignores_rd_rm :
    decode standardOpc 0b11100000_1010_1011_0000000000000011 = .ok (.int 3) := by decide

/-- Row DE7: `bank` and the reserved bits are ignored outside the banked MOVs (R73, R76). -/
theorem test_decode_ignored_bits :
    decode standardOpc 0b01100001_0001_0010_0011_00001_00_11_111 =
      .ok (.addR .r1 .r2 { rn := .r3, sh := 1, dir := .shl }) := by decide
/-- Rows DE1 to DE3. -/
theorem test_decode_undefined :
    decode standardOpc 0x01000000 = .error (.undefinedOpcode 0x01) ∧
    decode standardOpc 0x44000000 = .error (.undefinedOpcode 0x44) ∧
    decode standardOpc 0xFFFFFFFF = .error (.undefinedOpcode 0xFF) := by decide
theorem test_decodeBytes_truncated :
    decodeBytes standardOpc .little [0, 0, 0] = .error .truncated := by decide
/-- The first byte in memory is bits 7:0 of the word (R43). -/
theorem test_decodeTableWord : decodeTableWord 32 0x40101234 = some (.movI .r1 0x1234) := by decide

/-! ### One step of each instruction -/

/-- The state of section 2 of the vectors: A = 0x1000, supervisor mode, I = 0, the given NZCV, r2 and r3, and the word at A. -/
def at1000 (w nzcv : Nat) (r2 r3 : Word) : State :=
  { State.reset with
    pc := 0x1000
    flags := BitVec.ofNat 32 (nzcv * 256)
    g := { State.reset.g with r2 := r2, r3 := r3 } }.withFetchWord 32 w

/-- What a test looks at: r1, NZCV as a number, pc. -/
def view (r : Result) : Option (Word × Nat × Word) :=
  match r with
  | .next t => some (t.g.r1, t.nzcv.index, t.pc)
  | .fault _ => none
  | .refused _ => none

/-- Whether an outcome is a next state with a property. -/
def nextWith (p : State → Bool) (r : Result) : Bool :=
  match r with
  | .next t => p t
  | .fault _ => false
  | .refused _ => false

/-- The fault an outcome is, if it is one. -/
def faultOf (r : Result) : Option Fault :=
  match r with
  | .next _ => none
  | .fault f => some f
  | .refused _ => none

/-- The refusal an outcome is, if it is one. -/
def refusalOf (r : Result) : Option Refusal :=
  match r with
  | .next _ => none
  | .fault _ => none
  | .refused x => some x

/-- What `nextWith` says. -/
theorem nextWith_iff (p : State → Bool) (r : Result) :
    nextWith p r = true ↔ ∃ t, r = .next t ∧ p t = true := by
  cases r <;> simp [nextWith]

/-- AR4 -/
theorem test_addR : view (step (at1000 0x61123080 0 0x7FFFFFFF 1)) =
    some (0x80000001, 0b1001, 0x1004) := by decide +kernel
/-- AR2 -/
theorem test_addI : view (step (at1000 0x6012FFFF 0 1 0)) = some (0, 0b0110, 0x1004) := by
  decide +kernel
/-- AR9 -/
theorem test_addcI : view (step (at1000 0x62120000 0b0010 0x7FFFFFFF 0)) =
    some (0x80000000, 0b1001, 0x1004) := by decide +kernel
/-- AR11 -/
theorem test_addcR : view (step (at1000 0x63123000 0b0010 0xFFFFFFFF 0xFFFFFFFF)) =
    some (0xFFFFFFFF, 0b1010, 0x1004) := by decide +kernel
/-- AR13 -/
theorem test_subI : view (step (at1000 0x6412FFFF 0 0 0)) = some (1, 0b0010, 0x1004) := by
  decide +kernel
/-- AR14 -/
theorem test_subR : view (step (at1000 0x65123000 0 0x80000000 1)) =
    some (0x7FFFFFFF, 0b0001, 0x1004) := by decide +kernel
/-- AR17 -/
theorem test_subcI : view (step (at1000 0x6612FFFF 0b0010 0 0)) = some (0, 0b0110, 0x1004) := by
  decide +kernel
/-- AR19 -/
theorem test_subcR : view (step (at1000 0x67123000 0b0010 0x80000000 0)) =
    some (0x7FFFFFFF, 0b0001, 0x1004) := by decide +kernel
/-- AR22 -/
theorem test_rsubI : view (step (at1000 0x68120000 0 0x80000000 0)) =
    some (0x80000000, 0b1011, 0x1004) := by decide +kernel
/-- AR24 -/
theorem test_rsubR : view (step (at1000 0x69123000 0 0x1234 0xFFFFFFFF)) =
    some (0xFFFFEDCB, 0b1000, 0x1004) := by decide +kernel
/-- AR25 -/
theorem test_rsubcI : view (step (at1000 0x6A12000A 0b0010 3 0)) = some (6, 0, 0x1004) := by
  decide +kernel
/-- AR27 -/
theorem test_rsubcR : view (step (at1000 0x6B123000 0b0010 0 0)) =
    some (0xFFFFFFFF, 0b1010, 0x1004) := by decide +kernel

/-- `at1000` with `LOGIC_CV` = `unchanged`, so that a test can look at all four flags: here C and V are 1 before. -/
def logicAt (w : Nat) (r2 r3 : Word) : State :=
  let s := at1000 w 0b0011 r2 r3
  { s with cfg := { s.cfg with logicCV := .unchanged } }

/-- LG2 -/
theorem test_andI : view (step (logicAt 0x8012FF00 0x12345678 0)) =
    some (0x12345600, 0b0011, 0x1004) := by decide +kernel
/-- LG4 -/
theorem test_andR : view (step (logicAt 0x81123460 0x12345678 0xFF)) =
    some (0x12000000, 0b0011, 0x1004) := by decide +kernel
/-- LG6 -/
theorem test_bicI : view (step (logicAt 0x82128000 0xFFFFFFFF 0)) =
    some (0x7FFF, 0b0011, 0x1004) := by decide +kernel
/-- LG8 -/
theorem test_bicR : view (step (logicAt 0x83123E00 0xFFFFFFFF 0xF)) =
    some (0x0FFFFFFF, 0b0011, 0x1004) := by decide +kernel
/-- LG9 -/
theorem test_orI : view (step (logicAt 0x84128000 1 0)) =
    some (0xFFFF8001, 0b1011, 0x1004) := by decide +kernel
/-- LG12 -/
theorem test_orR : view (step (logicAt 0x85123820 0xABCD0000 0x12345678)) =
    some (0xABCD1234, 0b1011, 0x1004) := by decide +kernel
/-- LG14 -/
theorem test_xorI : view (step (logicAt 0x861200FF 0xFF 0)) = some (0, 0b0111, 0x1004) := by
  decide +kernel
/-- LG16 -/
theorem test_xorR : view (step (logicAt 0x87123FC0 5 0x80000000)) =
    some (0xFFFFFFFA, 0b1011, 0x1004) := by decide +kernel
/-- LG2 with `LOGIC_CV` = `any`, the default: the result, whatever C and V. -/
theorem test_and_any : nextWith (fun t => t.g.r1 == 0x12345600 && t.pc == 0x1004)
    (step (at1000 0x8012FF00 0b1111 0x12345678 0)) = true := by decide +kernel

/-- CP2 -/
theorem test_cmpI : view (step (at1000 0xA002FFFF 0 5 0)) = some (0, 0b0010, 0x1004) := by
  decide +kernel
/-- CP5 -/
theorem test_cmpR : view (step (at1000 0xA1023000 0 0x80000000 1)) =
    some (0, 0b0001, 0x1004) := by decide +kernel
/-- CP9 -/
theorem test_tstI : view (step (logicAt 0xA2028000 0x80000000 0)) =
    some (0, 0b1011, 0x1004) := by decide +kernel
/-- CP11 -/
theorem test_tstR : view (step (logicAt 0xA3023200 0xF0 0xF0)) = some (0, 0b0111, 0x1004) := by
  decide +kernel

/-- LS2: the absolute address is sign-extended. -/
theorem test_ldrA : view (step
    { at1000 0x0010FFFC 0b1010 0 0 with
      mem := Memory.setWord .little (at1000 0x0010FFFC 0 0 0).mem 0xFFFFFFFC 5 }) =
    some (5, 0b1010, 0x1004) := by decide +kernel
/-- LS5: the address wraps. -/
theorem test_ldrI : view (step
    { at1000 0x02120004 0 0xFFFFFFFC 0 with
      mem := Memory.setWord .little (at1000 0x02120004 0 0 0).mem 0 0x77 }) =
    some (0x77, 0, 0x1004) := by decide +kernel
/-- LS9 -/
theorem test_ldrI_unaligned :
    faultOf (step (at1000 0x02120002 0 0x2000 0)) = some .unalignedData := by decide +kernel
/-- LS7, with r1 for r2, r2 for r3 and r3 for r4. -/
theorem test_ldrR : view (step
    { at1000 0x031230A0 0 0x2000 0x10 with
      mem := Memory.setWord .little (at1000 0x031230A0 0 0 0).mem 0x2008 0x99 }) =
    some (0x99, 0, 0x1004) := by decide +kernel
/-- LS10, with r2 for r1. -/
theorem test_strA : nextWith
    (fun t => Memory.word .little t.mem 0x104 == 0xCAFEF00D && t.pc == 0x1004)
    (step (at1000 0x20200104 0 0xCAFEF00D 0)) = true := by decide +kernel
/-- LS11 -/
theorem test_strI : nextWith
    (fun t => Memory.word .little t.mem 0xFFC == 7 && t.g.r3 == 0x1000)
    (step (at1000 0x2223FFFC 0 7 0x1000)) = true := by decide +kernel
/-- LS15: r15 stores as A + PC_BIAS. -/
theorem test_strI_pc : nextWith (fun t => Memory.word .little t.mem 0x2000 == 0x1000)
    (step (at1000 0x22F30000 0 0 0x2000)) = true := by decide +kernel
/-- LS14 -/
theorem test_strR : nextWith (fun t => Memory.word .little t.mem 0x3000 == 0xABCD)
    (step (at1000 0x23233000 0 0xABCD 0x1800)) = true := by decide +kernel

/-- Section 2.2, imm16 8000. -/
theorem test_movI : view (step (at1000 0x40108000 0b1010 0 0)) =
    some (0xFFFF8000, 0b1010, 0x1004) := by decide +kernel
/-- MV5 -/
theorem test_movR : view (step (at1000 0x41102220 0 0x80000010 0)) =
    some (0x08000001, 0, 0x1004) := by decide +kernel
/-- MV7 -/
theorem test_movR_pc : view (step (at1000 0x41F03000 0 0 0x2002)) = some (0, 0, 0x2002) := by
  decide +kernel
/-- MV1, with r2 for r1. -/
theorem test_movtI : nextWith (fun t => t.g.r2 == 0x1234ABCD)
    (step (at1000 0x42201234 0 0xABCD 0)) = true := by decide +kernel

/-- `at1000` in IRQ mode, with r8_s = 0x1111 and r8_i = 0x2222. -/
def irqAt (w : Nat) (r3 : Word) : State :=
  { at1000 w 0 0 r3 with
    mcr := 0
    bankS := { State.reset.bankS with r8 := 0x1111 }
    bankI := { State.reset.bankI with r8 := 0x2222 } }

/-- MV9 -/
theorem test_movRb : view (step (irqAt 0x43180008 0)) = some (0x1111, 0, 0x1004) := by
  decide +kernel
/-- MV12: bits 11:8 of what is read from `flags`, whatever the reserved bits read as. -/
theorem test_movRb_flags : ∃ t, step (at1000 0x43100018 0b1010 0 0) = .next t ∧
    nzcvOf t.g.r1 = { n := true, z := false, c := true, v := false } :=
  ⟨_, rfl, (Laws.nzcvOf_merge _ _).trans (by decide)⟩
/-- MV14 -/
theorem test_movWb : nextWith (fun t => t.bankS.lr == 0x44 && t.bankI.lr == 0)
    (step (irqAt 0x45E30008 0x44)) = true := by decide +kernel
/-- MV18, with r2 for r1. -/
theorem test_movWb_mcr : nextWith (fun t => t.mcr == 1 && t.mode == .irq)
    (step (at1000 0x45120018 0 1 0)) = true := by decide +kernel

/-- BR5 -/
theorem test_b_taken : view (step (at1000 0xC0C00020 0 0 0)) = some (0, 0, 0x1020) := by
  decide +kernel
/-- BR6 -/
theorem test_b_not_taken : view (step (at1000 0xC0C00020 0b0100 0 0)) =
    some (0, 0b0100, 0x1004) := by decide +kernel
/-- BR16 -/
theorem test_bl_irq : nextWith
    (fun t => t.bankI.lr == 0x1004 && t.bankS.lr == 0 && t.pc == 0xFF8)
    (step (irqAt 0xC2E0FFF8 0)) = true := by decide +kernel
/-- BR18: no link when not taken. -/
theorem test_bl_not_taken : nextWith (fun t => t.bankS.lr == 0 && t.pc == 0x1004)
    (step (at1000 0xC2B00040 0 0 0)) = true := by decide +kernel

/-- TR1 -/
theorem test_int : nextWith
    (fun t => t.bankI.lr == 0x1004 && t.mcr == 0x00000618 && t.pc == 0x10C && t.flags == 0x600 &&
      t.bankS == State.reset.bankS)
    (step { at1000 0xE0000003 0b0110 0 0 with mcr := 3 }) = true := by decide +kernel
/-- TR6: with I = 0 the three settings of `INT_WHEN_MASKED` that the spec names. -/
theorem test_int_masked :
    let s := at1000 0xE0000003 0 0 0
    refusalOf (step { s with cfg := { s.cfg with intWhenMasked := .refuse } }) = some .maskedInt ∧
    nextWith (fun t => t.pc == 0x10C)
      (step { s with cfg := { s.cfg with intWhenMasked := .trap } }) = true ∧
    nextWith (fun t => t.pc == 0x1004)
      (step { s with cfg := { s.cfg with intWhenMasked := .nop } }) = true := by decide +kernel
/-- TR7 -/
theorem test_external_interrupt : nextWith
    (fun t => t.bankI.lr == 0x1000 && t.mcr == 0x00000428 && t.pc == 0x114 && t.irqIn == .always none)
    (step { at1000 0x40100007 0b0100 0 0 with mcr := 3, irqIn := .listed (some 5) (.always none) }) = true := by
  decide +kernel
/-- A source that requests for ever still does after the trap (R182). -/
theorem test_request_for_ever : nextWith (fun t => t.pc == 0x114 && t.irqAnswer == some 5)
    (step { at1000 0x40100007 0 0 0 with mcr := 3, irqIn := .always (some 5) }) = true := by
  decide +kernel
/-- TR9 -/
theorem test_debug_refused :
    refusalOf (step { at1000 0x40100007 0 0 0 with mcr := 0x4002 }) = some .debugMode := by decide +kernel

/-! ### Witnesses: for each obligation with hypotheses, values that meet them all -/

/-- A platform with RAM, a device at 0x3000 to 0x37FF and nothing at 0x3800 to 0x3FFF; r2 = `r2`, r3 = 0, the word `w` at pc = 0x1000. -/
def mapped (w : Nat) (r2 : Word) : State :=
  let s := at1000 w 0 r2 0
  { s with cfg := { s.cfg with memMap :=
    { regions := [{ first := 0xC00, last := 0xDFF, kind := .device },
        { first := 0xE00, last := 0xFFF, kind := .nothing }]
      rest := .ram } } }

/-- `mapped` with one listed answer for the next device read. -/
def mappedWithAnswer (w : Nat) (r2 : Word) : State := { mapped w r2 with devIn := [0xAB] }

theorem witness_DecodeEncodeRoundTrip : lawfulOpc standardOpc = true := by decide +kernel

theorem witness_DecodedWordReencodes :
    decode standardOpc 0x611230FF = .ok (.addR .r1 .r2 { rn := .r3, sh := 1, dir := .ror }) := by
  decide

theorem witness_WordFieldLayout :
    (0xFF : Byte).setWidth 32 <<< 24 ||| (15 : BitVec 4).setWidth 32 <<< 20 |||
      (0 : BitVec 4).setWidth 32 <<< 16 ||| (0xFFFF : Half).setWidth 32 = (0xFFF0FFFF : Word) ∧
    (0x61 : Byte).setWidth 32 <<< 24 ||| (1 : BitVec 4).setWidth 32 <<< 20 |||
      (2 : BitVec 4).setWidth 32 <<< 16 ||| (3 : BitVec 4).setWidth 32 <<< 12 |||
      (31 : BitVec 5).setWidth 32 <<< 7 ||| (3 : BitVec 2).setWidth 32 <<< 5 |||
      (3 : BitVec 2).setWidth 32 <<< 3 ||| (0 : BitVec 3).setWidth 32 = (0x61123FF8 : Word) := by
  decide

theorem witness_IgnoredFieldsDoNotMatter :
    formOf standardOpc (opcodeField 0x61123080) = some .addR ∧
    (0x61123080 : Word) &&& usedBits .addR = 0x6112309F &&& usedBits .addR := by decide

theorem witness_RegisterCopiesPerMode :
    (Reg.r7 ≠ .pc ∧ isBanked .r7 = false) ∧ (Reg.r8 ≠ .pc ∧ isBanked .r8 = true ∧
      Mode.sup ≠ .irq) ∧ (Reg.lr ≠ .pc ∧ isBanked .lr = true) ∧
    (Reg.r13 ≠ .pc ∧ Reg.r13 ≠ .lr) := by decide

/-- Every value of `f` meets it, with `c` its C bit or the complement. -/
theorem witness_ConditionPredicates :
    (true = match SubCOut.borrow with
      | .borrow => (nzcvOf 0x200).c
      | .notBorrow => !(nzcvOf 0x200).c) ∧
    (false = match SubCOut.notBorrow with
      | .borrow => (nzcvOf 0x200).c
      | .notBorrow => !(nzcvOf 0x200).c) := by decide

theorem witness_ConditionsCompareOperands :
    ({ n := true, z := false, c := true, v := false } : Nzcv) = (subB .borrow 1 2 false).2 := by
  decide +kernel

/-- LDR, one witness per clause, at the edges of the regions: unaligned; nothing; RAM; a device with an answer listed and with none. -/
theorem witness_LdrResult :
    (0x37FF : Word).toNat % 4 ≠ 0 ∧
    ((0x3FFC : Word).toNat % 4 = 0 ∧ kindAt (mapped 0 0).cfg.memMap 0x3FFC = .nothing) ∧
    ((0x2FFC : Word).toNat % 4 = 0 ∧ kindAt (mapped 0 0).cfg.memMap 0x2FFC = .ram) ∧
    ((0x3000 : Word).toNat % 4 = 0 ∧ kindAt (mapped 0 0).cfg.memMap 0x3000 = .device ∧
      (mappedWithAnswer 0 0).devIn = 0xAB :: []) ∧
    ((0x37FC : Word).toNat % 4 = 0 ∧ kindAt (mapped 0 0).cfg.memMap 0x37FC = .device) := by
  decide +kernel

/-- STR, one witness per clause, in a state whose memory is canonical. -/
theorem witness_StrResult :
    Canonical (mapped 0x22230000 7) ∧ (0x3001 : Word).toNat % 4 ≠ 0 ∧
    ((0x3800 : Word).toNat % 4 = 0 ∧
      kindAt (mapped 0x22230000 7).cfg.memMap 0x3800 = .nothing) ∧
    ((0x4000 : Word).toNat % 4 = 0 ∧ kindAt (mapped 0x22230000 7).cfg.memMap 0x4000 = .ram) ∧
    ((0x37FC : Word).toNat % 4 = 0 ∧
      kindAt (mapped 0x22230000 7).cfg.memMap 0x37FC = .device) := by
  refine ⟨?_, ?_⟩
  · unfold Canonical
    decide +kernel
  · decide +kernel

theorem witness_MovFromModeBank : isBanked .r0 = false ∧ isBanked .r7 = false ∧
    isBanked .pc = false := by decide

theorem witness_MovReservedBankFaults :
    (Reg.r2 ≠ .r0 ∧ Reg.r2 ≠ .r1) ∧ (Reg.pc ≠ .r0 ∧ Reg.pc ≠ .r1) := by decide

/-- A condition number with a predicate and one without; the predicate holding and not. -/
theorem witness_BranchResult :
    condOf State.reset.cfg.cond 14 = some .al ∧ condOf State.reset.cfg.cond 15 = none ∧
    (condOf State.reset.cfg.cond 0 = some .eq ∧
      condHolds State.reset.cfg.subCOut .eq State.reset.nzcv = false) := by decide

theorem witness_BranchLinkResult :
    condOf State.reset.cfg.cond 15 = none ∧
    (condOf State.reset.cfg.cond 0 = some .eq ∧
      condHolds State.reset.cfg.subCOut .eq State.reset.nzcv = false) ∧
    (condOf State.reset.cfg.cond 1 = some .ne ∧
      condHolds State.reset.cfg.subCOut .ne State.reset.nzcv = true) := by decide

/-- A reset state with another setting of `INT_WHEN_MASKED`. -/
def masked (m : IntWhenMasked) : State := State.resetOn { standardConfig with intWhenMasked := m }

theorem witness_IntResult :
    32 ≤ (32 : Half).toNat ∧ (31 : VecNum).toNat = (31 : Half).toNat ∧
    State.intEnabled { State.reset with mcr := 3 } = true ∧
    ((masked .refuse).intEnabled = false ∧ (masked .refuse).cfg.intWhenMasked = .refuse) ∧
    ((masked .trap).intEnabled = false ∧ (masked .trap).cfg.intWhenMasked = .trap) ∧
    ((masked .nop).intEnabled = false ∧ (masked .nop).cfg.intWhenMasked = .nop) ∧
    (State.reset.intEnabled = false ∧ State.reset.cfg.intWhenMasked = .trapOrNop) := by decide

theorem witness_TrapReturnSequence : (irqAt 0 0).mode = .irq := by decide +kernel

theorem witness_ReadAfterWriteOfMemory :
    Canonical (mapped 0 0) ∧
    ((0xFFFFFFFC : Word).toNat % 4 = 0 ∧ kindAt (mapped 0 0).cfg.memMap 0xFFFFFFFC = .ram) ∧
    ((0 : Word).toNat % 4 = 0 ∧ (0 : Word) ≠ 0xFFFFFFFC ∧
      kindAt (mapped 0 0).cfg.memMap 0 = .ram) := by
  refine ⟨?_, ?_⟩
  · unfold Canonical
    decide +kernel
  · decide +kernel

/-- The three forms, each storing r2 at an address in RAM. -/
theorem witness_StoreIsSeenByFetch :
    let s := mapped 0 0x40100001
    Canonical s ∧
    (nextWith (fun _ => true) (exec (.strA .r2 0x0104) s) = true ∧
      kindAt s.cfg.memMap (eaAbsolute 0x0104) = .ram) ∧
    (nextWith (fun _ => true) (exec (.strI .r2 .r3 0xFFFC) s) = true ∧
      kindAt s.cfg.memMap (s.eaDisplaced .r3 0xFFFC) = .ram) ∧
    (nextWith (fun _ => true) (exec (.strR .r2 .r3 { rn := .pc, sh := 1, dir := .shl }) s) = true ∧
      kindAt s.cfg.memMap (s.eaIndexed .r3 { rn := .pc, sh := 1, dir := .shl }) = .ram) := by
  refine ⟨?_, ?_⟩
  · unfold Canonical
    decide +kernel
  · decide +kernel

theorem witness_ByteOrderOfWords :
    Memory.wf (mapped 0x40100001 0).mem = true ∧ 0xFFFFFFFC + 3 < 2 ^ 32 ∧ 3 < 4 := by
  decide +kernel

/-- In RAM, with I = 0 and with I = 1 and no request; in a device that answers `MOV r1, 7`. -/
theorem witness_StepRunsDecodedInstr :
    (let s := mapped 0x40100007 0;
      s.debugOn = false ∧ s.intEnabled = false ∧ s.pc.toNat % 4 = 0 ∧
      kindAt s.cfg.memMap s.pc = .ram ∧
      decode s.cfg.opc (Memory.word s.cfg.endian s.mem s.pc.toNat) = .ok (.movI .r1 7)) ∧
    (let s : State := { mapped 0 0 with mcr := 3, pc := 0x3000, devIn := [0x40100007] };
      s.debugOn = false ∧ s.irqAnswer = none ∧ s.pc.toNat % 4 = 0 ∧
      kindAt s.cfg.memMap s.pc = .device ∧
      decode s.cfg.opc s.deviceAnswer = .ok (.movI .r1 7)) := by decide +kernel

theorem witness_FetchFaults :
    (let s : State := { mapped 0 0 with pc := 0x1001 };
      s.debugOn = false ∧ s.acceptedIrq = none ∧ s.pc.toNat % 4 ≠ 0) ∧
    (let s : State := { mapped 0 0 with pc := 0x3FFC };
      s.debugOn = false ∧ s.acceptedIrq = none ∧ s.pc.toNat % 4 = 0 ∧
      kindAt s.cfg.memMap s.pc = .nothing) ∧
    (let s := mapped 0x01000000 0;
      s.debugOn = false ∧ s.acceptedIrq = none ∧ s.pc.toNat % 4 = 0 ∧
      kindAt s.cfg.memMap s.pc = .ram ∧
      formOf s.cfg.opc (opcodeField (Memory.word s.cfg.endian s.mem s.pc.toNat)) = none) ∧
    (let s : State := { mapped 0 0 with pc := 0x37FC, devIn := [0xFF000000] };
      s.debugOn = false ∧ s.acceptedIrq = none ∧ s.pc.toNat % 4 = 0 ∧
      kindAt s.cfg.memMap s.pc = .device ∧
      formOf s.cfg.opc (opcodeField s.deviceAnswer) = none) := by
  decide +kernel

theorem witness_DebugModeRefused :
    (State.mcr { State.reset with mcr := 0x4002 }).getLsbD 14 = true := by decide

/-- In supervisor mode a source that requests for ever; in IRQ mode one that requests once, nothing being known of it afterwards. -/
theorem witness_AcceptedInterruptTraps :
    (let s : State := { State.reset with mcr := 3, irqIn := .always (some 31) };
      s.debugOn = false ∧ s.intEnabled = true ∧ s.irqAnswer = some 31) ∧
    (let s : State := { State.reset with mcr := 1, irqIn := .listed (some 0) (.free 0) };
      s.debugOn = false ∧ s.intEnabled = true ∧ s.irqAnswer = some 0) := by decide

theorem witness_MaskedRequestLeavesNoTrace : State.reset.intEnabled = false := by decide

/-- A store: the memory is canonical before, the step answers a next state, and the byte at 0x2003 differs. -/
theorem witness_StepKeepsCanonicalMemory :
    Canonical (mapped 0x20102000 0) ∧
      nextWith (fun _ => true) (step (mapped 0x20102000 0)) = true := by
  refine ⟨?_, ?_⟩
  · unfold Canonical
    decide +kernel
  · decide +kernel

theorem witness_StepKeepsParametersAndReservedBits :
    nextWith (fun _ => true) (step { mapped 0x45020018 0xFFFFFFFF with flags := 0xF0F }) = true := by
  decide +kernel

theorem witness_OnlyStoresChangeMemory :
    Canonical (mapped 0x20202000 0xAA000000) ∧
      nextWith (fun t => Memory.byte t.mem 0x2003 !=
        Memory.byte (mapped 0x20202000 0xAA000000).mem 0x2003)
        (step (mapped 0x20202000 0xAA000000)) = true := by
  refine ⟨?_, ?_⟩
  · unfold Canonical
    decide +kernel
  · decide +kernel

theorem witness_OnlyListedFormsChangeFlags :
    nextWith (fun t => t.flags != (mapped 0xA0020001 0).flags) (step (mapped 0xA0020001 0)) =
      true := by decide +kernel

/-- By an accepted interrupt, by INT, by MOV to mcr. -/
theorem witness_McrChangesOnlyByTrapOrMov :
    nextWith (fun t => t.mcr != 3) (step { State.reset with mcr := 3, irqIn := .listed (some 5) (.always none) }) = true ∧
    nextWith (fun t => t.mcr != 3) (step { mapped 0xE0000003 0 with mcr := 3 }) = true ∧
    nextWith (fun t => t.mcr != 2) (step (mapped 0x45120018 3)) = true := by decide +kernel

/-- From IRQ to supervisor mode by MOV to mcr; from supervisor to IRQ mode by each of the three. -/
theorem witness_IrqModeLeftOnlyByMovToMcr :
    (let s : State := { mapped 0x45120018 2 with mcr := 0 };
      s.mode = .irq ∧ nextWith (fun t => t.mode == .sup) (step s) = true) ∧
    (let s : State := { State.reset with mcr := 3, irqIn := .listed (some 5) (.always none) };
      s.mode = .sup ∧ nextWith (fun t => t.mode == .irq) (step s) = true) ∧
    (let s : State := { mapped 0xE0000003 0 with mcr := 3 };
      s.mode = .sup ∧ nextWith (fun t => t.mode == .irq) (step s) = true) ∧
    (let s := mapped 0x45120018 1;
      s.mode = .sup ∧ nextWith (fun t => t.mode == .irq) (step s) = true) ∧
    isBanked .r0 = false := by decide +kernel

theorem witness_IrqModeCannotTouchSupervisorBank :
    (irqAt 0x45E30008 0x44).mode = .irq ∧
      nextWith (fun t => t.bankS != (irqAt 0x45E30008 0x44).bankS)
        (step (irqAt 0x45E30008 0x44)) = true := by decide +kernel

theorem witness_ModesExecuteAlike :
    viewOnly (.bl 14 8) = true ∧ viewOnly (.ldrI .r8 .lr 4) = true := by decide

/-- Two accesses in one step: a fetch from a device of a load from a device. -/
theorem witness_DeviceRecordOnlyGrows :
    nextWith (fun t => t.devLog.length == 2)
      (step { mapped 0 0x3000 with pc := 0x3004, devIn := [0x02120000, 9] }) = true := by
  decide +kernel

theorem witness_HaltMarkerLoops :
    let s := mapped 0xC0E00000 0
    s.cfg.pcBias = 0 ∧ condOf s.cfg.cond 14 = some .al ∧ s.debugOn = false ∧
      s.acceptedIrq = none ∧ atHalt s := by
  refine ⟨by decide +kernel, by decide +kernel, by decide +kernel, by decide +kernel, ?_⟩
  unfold atHalt
  decide +kernel

end Sys2Proof.Tests
end

