-- ==== Sys2Proof/Proofs/Scope.lean ====
section
/-! Proofs about `00_scope.md`: a step whose fetch is from RAM, a branch that is taken, and the end-of-run marker. -/

namespace Sys2Proof.Proofs

open Sys2Proof.Machine Sys2Proof.Laws

/-! ### Fetch and step: the converses of `memRead_cases`, `fetch_cases` and `step_cases` -/

theorem memRead_of_ram {s : State} {a : Word} (hram : kindAt s.cfg.memMap a = .ram) :
    s.memRead a = .ok (Memory.word s.cfg.endian s.mem a.toNat, s) := by
  simp only [State.memRead, hram]

theorem fetch_of_ram {s : State} (hpc : s.pc.toNat % 4 = 0)
    (hram : kindAt s.cfg.memMap s.pc = .ram) :
    s.fetch = .ok (Memory.word s.cfg.endian s.mem s.pc.toNat, s) := by
  rw [State.fetch, if_pos ((aligned_iff s.pc).mpr hpc), memRead_of_ram hram]

/-- The instruction a step runs when pc is in RAM: no device answer is used up by the fetch. -/
theorem runs_of_ram {s : State} {i : Instr} (hdebug : s.debugOn = false)
    (hirq : s.acceptedIrq = none) (hpc : s.pc.toNat % 4 = 0)
    (hram : kindAt s.cfg.memMap s.pc = .ram)
    (hdec : decode s.cfg.opc (Memory.word s.cfg.endian s.mem s.pc.toNat) = .ok i) :
    Runs s i s.dropIrq :=
  ⟨hdebug, hirq, _, fetch_of_ram (s := s.dropIrq) hpc hram, hdec⟩

/-- A step that runs an instruction answers what the instruction means (R195). -/
theorem step_of_runs {s u : State} {i : Instr} (h : Runs s i u) : step s = exec i u := by
  obtain ⟨hdebug, hirq, w, hfetch, hdec⟩ := h
  have hcycle : step s = runInstr s.dropIrq := by simp [step, cycle, hdebug, hirq]
  simp only [hcycle, runInstr, hfetch, hdec]

/-! ### Branches (R161, R162) -/

theorem exec_b (cond : BitVec 4) (imm : Half) (s : State) :
    exec (.b cond imm) s = execB cond imm s := rfl

theorem execB_taken {cond : BitVec 4} {k : Cond} {s : State} (imm : Half)
    (hk : condOf s.cfg.cond cond = some k) (hholds : condHolds s.cfg.subCOut k s.nzcv = true) :
    execB cond imm s = .next (s.setPc (s.branchTarget imm)) := by
  simp only [execB, hk, hholds, if_true]

@[simp] theorem condHolds_al (co : SubCOut) (f : Nzcv) : condHolds co .al f = true := rfl

/-- With PC_BIAS 0 a branch of displacement 0 goes to its own address. -/
theorem branchTarget_zero {s : State} (hbias : s.cfg.pcBias = 0) : s.branchTarget 0 = s.pc := by
  simp [State.branchTarget, immOperand, hbias]

@[simp] theorem setPc_self (s : State) : s.setPc s.pc = s := rfl

/-! ### The end-of-run marker (R5, R216, D39) -/

/-- `B 0` changes nothing at all. -/
theorem exec_aliasHalt {s : State} (hbias : s.cfg.pcBias = 0)
    (hal : condOf s.cfg.cond 14 = some .al) : exec aliasHalt s = .next s := by
  rw [aliasHalt, exec_b, execB_taken 0 hal (condHolds_al _ _), branchTarget_zero hbias, setPc_self]

/-- Settles O60: the step runs `B 0` in the state with this boundary's interrupt answer used up, and `B 0` changes nothing. -/
theorem haltMarkerLoops : Obligations.HaltMarkerLoops := by
  unfold Obligations.HaltMarkerLoops
  rintro s hbias hal hdebug hirq ⟨hpc, hram, hdec⟩
  have hruns : Runs s aliasHalt s.dropIrq := runs_of_ram hdebug hirq hpc hram hdec
  calc step s = exec aliasHalt s.dropIrq := step_of_runs hruns
    _ = .next s.dropIrq := exec_aliasHalt (s := s.dropIrq) hbias hal
    _ = .next { s with irqIn := s.irqIn.tail } := rfl

end Sys2Proof.Proofs
end

/-! Proofs about `10_state.md`: the copies of the registers, the banked MOVs that name a reserved register, the state after reset, and what a step keeps of the parameters, `flags`, `mcr` and the supervisor bank. -/

namespace Sys2Proof.Proofs

open Sys2Proof.Machine Sys2Proof.Laws

/-! ### Register copies (R13) -/

/-- A register with one copy reads alike in both modes. -/
theorem readIn_of_shared {r : Reg} (s : State) (m m' : Mode) (h : isBanked r = false) :
    s.readIn m' r = s.readIn m r := by
  cases r <;> cases h <;> rfl

/-- Settles O9: a register with one copy reads alike in both modes, so each clause is a read of the register written or of another one. -/
theorem registerCopiesPerMode : Obligations.RegisterCopiesPerMode := by
  unfold Obligations.RegisterCopiesPerMode
  refine ⟨fun s m m' r v hr => ⟨?same, ?banked, ?other, ?pc⟩,
    fun s m m' v => ⟨?pcWritten, ?pcRead, ?kept⟩⟩
  case same =>
    rintro (hshared | rfl)
    · rw [readIn_of_shared _ m m' hshared, readIn_writeIn_same s m v hr]
    · exact readIn_writeIn_same s m v hr
  case banked => exact fun hb hm => readIn_writeIn_other s v hr fun hsame => hm (hsame.2 hb)
  case other => exact fun r' hr' hne => readIn_writeIn_other s v hr' fun hsame => hne hsame.1.symm
  case pc => simp [hr]
  case pcWritten => simp
  case pcRead => simp [State.readIn]
  case kept => exact fun _ _ hr => readIn_writeIn_other s v hr fun hsame => hr hsame.1.symm

/-! ### Banked MOVs that name a reserved register (R16, R35, R77) -/

theorem exec_movRb_error {s : State} {k : Bank} {rm : Reg} {f : Fault} (rd : Reg)
    (h : s.readBanked k rm = .error f) : exec (.movRb rd k rm) s = .fault f := by
  simp only [exec, execMovRb, h]

theorem exec_movWb_error {s : State} {k : Bank} {rd rm : Reg} {f : Fault}
    (h : s.advance.writeBanked k rd (s.readReg rm) = .error f) :
    exec (.movWb k rd rm) s = .fault f := by
  simp only [exec, execMovWb, h]

theorem readBanked_bank3_other (s : State) {r : Reg} (h0 : r ≠ .r0) (h1 : r ≠ .r1) :
    s.readBanked .bank3 r = .error .reservedBank3Register := by
  cases r <;> simp_all [State.readBanked]

theorem writeBanked_bank3_other (s : State) {r : Reg} (v : Word) (h0 : r ≠ .r0) (h1 : r ≠ .r1) :
    s.writeBanked .bank3 r v = .error .reservedBank3Register := by
  cases r <;> simp_all [State.writeBanked]

/-- Settles O32: a banked MOV stops with the fault of the bank access it makes. -/
theorem movReservedBankFaults : Obligations.MovReservedBankFaults := by
  unfold Obligations.MovReservedBankFaults
  exact fun rd rm s => ⟨exec_movRb_error rd rfl, exec_movWb_error rfl,
    fun h0 h1 => exec_movRb_error rd (readBanked_bank3_other s h0 h1),
    fun h0 h1 => exec_movWb_error (writeBanked_bank3_other _ _ h0 h1)⟩

/-! ### The state after reset (R38) -/

theorem resetOn_mcr (c : Config) : (State.resetOn c).mcr = if c.resetI then 3 else 2 := rfl

@[simp] theorem resetOn_mode (c : Config) : (State.resetOn c).mode = .sup := by
  rw [State.mode, resetOn_mcr]
  cases c.resetI <;> rfl

@[simp] theorem resetOn_intEnabled (c : Config) : (State.resetOn c).intEnabled = c.resetI := by
  rw [State.intEnabled, resetOn_mcr]
  cases c.resetI <;> rfl

@[simp] theorem resetOn_debugOn (c : Config) : (State.resetOn c).debugOn = false := by
  rw [State.debugOn, resetOn_mcr]
  cases c.resetI <;> rfl

/-- Settles O50: memory after reset is empty on every platform. -/
theorem resetMemoryIsCanonical : Obligations.ResetMemoryIsCanonical :=
  ⟨wf_resetOn, wf_resetOn standardConfig⟩

/-- Settles O51, field by field of `mcr`. -/
theorem resetState : Obligations.ResetState := by
  unfold Obligations.ResetState
  exact ⟨fun c => ⟨resetOn_mode c, resetOn_intEnabled c, resetOn_debugOn c, rfl, rfl⟩, rfl,
    resetOn_intEnabled standardConfig⟩

/-! ### What a fetch leaves alone -/

section Fetch
variable {s u : State} {i : Instr} (h : Runs s i u)
include h

theorem runs_cfg : u.cfg = s.cfg := by
  rcases runs_state h with rfl | rfl <;> simp

theorem runs_flags : u.flags = s.flags := by
  rcases runs_state h with rfl | rfl <;> simp

theorem runs_mcr : u.mcr = s.mcr := by
  rcases runs_state h with rfl | rfl <;> simp

theorem runs_bankS : u.bankS = s.bankS := by
  rcases runs_state h with rfl | rfl <;> simp

end Fetch

/-! ### Parameters and reserved bits (R26, R33) -/

/-- The reserved bits of `flags`. -/
def flagsReserved : Word := 0xFFFFF0FF

/-- The reserved bits of `mcr`: 2 and 13:12 (R27). -/
def mcrReserved : Word := 0x00003004

/-- A merge keeps every bit that its mask does not select. -/
theorem merge_and_of_disjoint {mask keep : Word} (old new : Word) (h : mask &&& keep = 0) :
    merge mask old new &&& keep = old &&& keep := by
  ext i hi
  have hbit : (mask &&& keep).getLsbD i = false := by simp [h]
  simp only [← BitVec.getLsbD_eq_getElem, BitVec.getLsbD_and, getLsbD_merge] at hbit ⊢
  cases hm : mask.getLsbD i <;> simp_all

theorem execFrame_flagsReserved {i : Instr} {s t : State} (h : ExecFrame i s t) :
    t.flags &&& flagsReserved = s.flags &&& flagsReserved := by
  rcases h.flags with hkept | ⟨_, v, hmerge⟩
  · rw [hkept]
  · rw [hmerge, merge_and_of_disjoint _ _ (by decide)]

theorem trapEntry_mcrReserved (s : State) (v : VecNum) (ret : Word) :
    (s.trapEntry v ret).mcr &&& mcrReserved = s.mcr &&& mcrReserved := by
  rw [trapEntry_mcr, merge_and_of_disjoint _ _ (by decide)]

theorem execFrame_mcrReserved {i : Instr} {s t : State} (h : ExecFrame i s t) :
    t.mcr &&& mcrReserved = s.mcr &&& mcrReserved := by
  rcases h.mcr with hkept | ⟨_, _, v, ret, htrap⟩ | ⟨_, _, hmerge⟩
  · rw [hkept]
  · rw [htrap, trapEntry_mcrReserved]
  · rw [hmerge, merge_and_of_disjoint _ _ (by decide)]

/-- Settles O52: no instruction writes the parameters, and `flags` and `mcr` are written under masks that leave the reserved bits out. -/
theorem stepKeepsParametersAndReservedBits : Obligations.StepKeepsParametersAndReservedBits := by
  unfold Obligations.StepKeepsParametersAndReservedBits
  intro s t h
  rcases step_cases h with ⟨_, v, _, rfl⟩ | ⟨i, u, hruns, hexec⟩
  · exact ⟨by simp, by simp, trapEntry_mcrReserved s.dropIrq v s.pc⟩
  · have hframe := exec_frame hexec
    refine ⟨hframe.cfg.trans (runs_cfg hruns), ?_, ?_⟩
    · rw [← runs_flags hruns]
      exact execFrame_flagsReserved hframe
    · rw [← runs_mcr hruns]
      exact execFrame_mcrReserved hframe

/-! ### Which steps change `flags`, `mcr` and the supervisor bank -/

/-- Settles O54 (R24): a trap keeps `flags`, and so does every instruction that is not listed. -/
theorem onlyListedFormsChangeFlags : Obligations.OnlyListedFormsChangeFlags := by
  unfold Obligations.OnlyListedFormsChangeFlags
  intro s t h hne
  rcases step_cases h with ⟨_, v, _, rfl⟩ | ⟨i, u, hruns, hexec⟩
  · exact absurd (by simp) hne
  · rcases (exec_frame hexec).flags with hkept | ⟨hwrites, _⟩
    · exact absurd (hkept.trans (runs_flags hruns)) hne
    · exact ⟨i, u, hruns, hwrites⟩

/-- Settles O55 (R34): the three disjuncts are the trap of a step and the two instructions whose frame lets `mcr` change. -/
theorem mcrChangesOnlyByTrapOrMov : Obligations.McrChangesOnlyByTrapOrMov := by
  unfold Obligations.McrChangesOnlyByTrapOrMov
  intro s t h hne
  rcases step_cases h with ⟨_, v, haccepted, _⟩ | ⟨i, u, hruns, hexec⟩
  · exact .inl (by simp [haccepted])
  · rcases (exec_frame hexec).mcr with hkept | ⟨imm, rfl, _⟩ | ⟨rm, rfl, _⟩
    · exact absurd (hkept.trans (runs_mcr hruns)) hne
    · exact .inr (.inl ⟨imm, u, hruns⟩)
    · exact .inr (.inr ⟨rm, u, hruns⟩)

/-- Settles O57 (R15, R16): a trap writes the interrupt bank alone, and an instruction run in IRQ mode writes the supervisor bank only by naming it. -/
theorem irqModeCannotTouchSupervisorBank : Obligations.IrqModeCannotTouchSupervisorBank := by
  unfold Obligations.IrqModeCannotTouchSupervisorBank
  intro s t hmode h hne
  rcases step_cases h with ⟨_, v, _, rfl⟩ | ⟨i, u, hruns, hexec⟩
  · exact absurd (by simp) hne
  · have humode : u.mode = .irq := (mode_congr (runs_mcr hruns)).trans hmode
    rcases (exec_frame hexec).bankS with hkept | hsup | ⟨rd, rm, rfl, hbanked⟩
    · exact absurd (hkept.trans (runs_bankS hruns)) hne
    · exact absurd (humode.symm.trans hsup) (by decide)
    · exact ⟨rd, rm, u, hruns, hbanked⟩

end Sys2Proof.Proofs

/-! Proofs about `20_memory.md`: aligned accesses to RAM, the bytes of a word, the faults of a fetch, and what a step does to memory and to the record of device accesses. -/

namespace Sys2Proof.Proofs

open Sys2Proof.Machine Sys2Proof.Laws

/-! ### Memory and the device record after one step: O49, O53, O59 -/

section Fetch
variable {s u : State} {i : Instr} (h : Runs s i u)
include h

theorem runs_mem : u.mem = s.mem := by
  rcases runs_state h with rfl | rfl <;> simp

theorem runs_devLog : u.devLog = s.devLog ∨ ∃ e, u.devLog = s.devLog ++ [e] := by
  rcases runs_state h with rfl | rfl
  · exact .inl rfl
  · exact .inr ⟨_, deviceRead_devLog s.dropIrq s.pc⟩

end Fetch

/-- Everything a step can do to memory: nothing, or the write of one word by a store it runs, at the aligned address that store addresses (R41, R45, R46). -/
theorem step_mem {s t : State} (h : step s = .next t) :
    t.mem = s.mem ∨
    ∃ i u ea v, Runs s i u ∧ storeAddress u i = some ea ∧ aligned ea = true ∧
      t.mem = Memory.setWord s.cfg.endian s.mem ea.toNat v := by
  rcases step_cases h with ⟨_, v, _, rfl⟩ | ⟨i, u, hruns, hexec⟩
  · exact .inl (by simp)
  · rw [← runs_mem hruns, ← runs_cfg hruns]
    rcases (exec_frame hexec).mem with hkept | ⟨ea, hea, haligned, v, hmem⟩
    · exact .inl hkept
    · exact .inr ⟨i, u, ea, v, hruns, hea, haligned, hmem⟩

/-- Settles O49: a step writes at most one word, and a word write keeps the canonical form. -/
theorem stepKeepsCanonicalMemory : Obligations.StepKeepsCanonicalMemory := by
  unfold Obligations.StepKeepsCanonicalMemory Canonical
  intro s t hwf h
  rcases step_mem h with hmem | ⟨i, u, ea, v, _, _, haligned, hmem⟩
  · rwa [hmem]
  · rw [hmem]
    exact wf_setWord _ v hwf (aligned_bound haligned)

/-- Settles O53: a byte that differs is not outside the one word that a step's store writes. -/
theorem onlyStoresChangeMemory : Obligations.OnlyStoresChangeMemory := by
  unfold Obligations.OnlyStoresChangeMemory
  intro s t a hwf h hne
  rcases step_mem h with hmem | ⟨i, u, ea, v, hruns, hea, haligned, hmem⟩
  · exact absurd (by rw [hmem]) hne
  · have hinside : ¬(a < ea.toNat ∨ ea.toNat + 4 ≤ a) := fun hout =>
      hne (by rw [hmem, byte_setWord_outside _ v hwf (aligned_bound haligned) hout])
    exact ⟨i, u, ea, hruns, hea, by omega, by omega⟩

/-- A record that stays, or gets one more entry, has the old one as a prefix. -/
theorem prefix_of_grows {l l' : List DevEvent} (h : l' = l ∨ ∃ e, l' = l ++ [e]) :
    l <+: l' ∧ l'.length ≤ l.length + 1 := by
  rcases h with rfl | ⟨e, rfl⟩
  · exact ⟨List.prefix_rfl, by omega⟩
  · exact ⟨List.prefix_append l [e], by simp⟩

/-- Settles O59: a trap makes no access; an instruction's fetch makes at most one, and its execution at most one more. -/
theorem deviceRecordOnlyGrows : Obligations.DeviceRecordOnlyGrows := by
  unfold Obligations.DeviceRecordOnlyGrows
  intro s t h
  rcases step_cases h with ⟨_, v, _, rfl⟩ | ⟨i, u, hruns, hexec⟩
  · exact ⟨List.prefix_rfl, Nat.le_add_right _ 2⟩
  · obtain ⟨hfetch, hfetchLen⟩ := prefix_of_grows (runs_devLog hruns)
    obtain ⟨hdata, hdataLen⟩ := prefix_of_grows (exec_frame hexec).devLog
    exact ⟨hfetch.trans hdata, by omega⟩

/-! ### Reads and writes of aligned words in RAM (R44, R45): O41, O42 -/

theorem loadData_of_ram {s : State} {a : Word} (ha : aligned a = true)
    (hram : kindAt s.cfg.memMap a = .ram) :
    s.loadData a = .ok (Memory.word s.cfg.endian s.mem a.toNat, s) := by
  rw [State.loadData, if_pos ha, memRead_of_ram hram]

theorem storeData_of_ram {s : State} {a : Word} (v : Word) (ha : aligned a = true)
    (hram : kindAt s.cfg.memMap a = .ram) :
    ∃ t, s.storeData a v = .ok t ∧ t.cfg = s.cfg ∧
      t.mem = Memory.setWord s.cfg.endian s.mem a.toNat v := by
  simp [State.storeData, ha, State.memWrite, hram]

/-- Two different aligned words do not overlap. -/
theorem aligned_disjoint {a b : Word} (ha : a.toNat % 4 = 0) (hb : b.toNat % 4 = 0) (h : b ≠ a) :
    b.toNat + 4 ≤ a.toNat ∨ a.toNat + 4 ≤ b.toNat := by
  have hne : b.toNat ≠ a.toNat := fun heq => h (BitVec.eq_of_toNat_eq heq)
  omega

/-- Settles O41: the word written reads back, and another aligned word lies outside it. -/
theorem readAfterWriteOfMemory : Obligations.ReadAfterWriteOfMemory := by
  unfold Obligations.ReadAfterWriteOfMemory
  intro s a v hwf ha hram
  have haligned := (aligned_iff a).mpr ha
  obtain ⟨t, hstore, hcfg, hmem⟩ := storeData_of_ram v haligned hram
  refine ⟨t, hstore, ?same, fun b hb hne hbram => ?other⟩
  case same =>
    rw [loadData_of_ram haligned (by rwa [hcfg]), hcfg, hmem,
      word_setWord _ v hwf (aligned_bound haligned)]
  case other =>
    rw [loadData_of_ram ((aligned_iff b).mpr hb) (by rwa [hcfg]), hcfg, hmem,
      word_setWord_outside _ v hwf (aligned_bound haligned) (aligned_disjoint ha hb hne)]

/-- A store that completes in RAM is an aligned write of Rd's value, and the fetch there reads RAM. -/
theorem fetch_of_storeFrom {s t : State} {rd : Reg} {ea : Word} (hwf : Canonical s)
    (hram : kindAt s.cfg.memMap ea = .ram) (h : storeFrom s rd ea = .next t) :
    (t.setPc ea).fetch = .ok (s.readReg rd, t.setPc ea) := by
  obtain ⟨u, hstore, rfl⟩ := storeFrom_next h
  have haligned := (storeData_cases hstore).1
  obtain ⟨_, hwritten, hcfg, hmem⟩ := storeData_of_ram (s.readReg rd) haligned hram
  cases hstore.symm.trans hwritten
  rw [fetch_of_ram (s := u.advance.setPc ea) ((aligned_iff ea).mp haligned) (by simpa [hcfg])]
  simp [hcfg, hmem, word_setWord _ _ hwf (aligned_bound haligned)]

/-- Settles O42 (R56, D21): each of the three forms is `storeFrom` at its own address. -/
theorem storeIsSeenByFetch : Obligations.StoreIsSeenByFetch := by
  unfold Obligations.StoreIsSeenByFetch
  rintro s t ea v hwf hram
    (⟨rd, imm, h, rfl, rfl⟩ | ⟨rd, rm, imm, h, rfl, rfl⟩ | ⟨rd, rm, op2, h, rfl, rfl⟩)
  all_goals exact fetch_of_storeFrom hwf hram h

/-! ### The bytes of a word (R43): O43 -/

/-- Each byte of a word just written, in either byte order. -/
theorem byte_setWord_inside {m : Memory} {a i : Nat} (e : Endian) (w : Word)
    (hm : Memory.wf m = true) (ha : a + 3 < 2 ^ 32) (hi : i < 4) :
    Memory.byte (Memory.setWord e m a w) (a + i) = byteOf e w i := by
  rw [byte_setWord e w hm ha]
  match i, hi with
  | 0, _ | 1, _ | 2, _ | 3, _ => simp

/-- Settles O43: the byte at each offset is the model's `byteOf`, whose two orders are the two claims. -/
theorem byteOrderOfWords : Obligations.ByteOrderOfWords := by
  unfold Obligations.ByteOrderOfWords
  intro m a i w hm ha hi
  have hbig : 24 - 8 * i = 8 * (3 - i) := by omega
  rw [byte_setWord_inside .little w hm ha hi, byte_setWord_inside .big w hm ha hi, hbig]
  exact ⟨rfl, rfl⟩

/-! ### The faults of a fetch (R47, R52, R78): O45 -/

theorem fetch_of_unaligned {s : State} (hpc : s.pc.toNat % 4 ≠ 0) :
    s.fetch = .error .unalignedFetch := by
  rw [State.fetch, if_neg fun ha => hpc ((aligned_iff s.pc).mp ha)]

theorem fetch_of_unmapped {s : State} (hpc : s.pc.toNat % 4 = 0)
    (hnothing : kindAt s.cfg.memMap s.pc = .nothing) : s.fetch = .error .unmappedAccess := by
  rw [State.fetch, if_pos ((aligned_iff s.pc).mpr hpc)]
  simp only [State.memRead, hnothing]

/-- A fetch from a device takes its answer (logs 11 and 22). -/
theorem fetch_of_device {s : State} (hpc : s.pc.toNat % 4 = 0)
    (hdevice : kindAt s.cfg.memMap s.pc = .device) :
    s.fetch = .ok (s.deviceAnswer, s.deviceRead s.pc) := by
  rw [State.fetch, if_pos ((aligned_iff s.pc).mpr hpc)]
  simp only [State.memRead, hdevice]

@[simp] theorem dropIrq_deviceAnswer (s : State) : s.dropIrq.deviceAnswer = s.deviceAnswer := rfl

/-- An opcode byte that no form has does not decode (R78). -/
theorem decode_of_undefinedOpcode {opc : OpcodeMap} {w : Word}
    (h : formOf opc (opcodeField w) = none) :
    decode opc w = .error (.undefinedOpcode (opcodeField w)) := by
  simp only [decode, h]

section NoInterrupt
variable {s : State} (hdebug : s.debugOn = false) (hirq : s.acceptedIrq = none)
include hdebug hirq

/-- A step with debug off and no request accepted is one instruction (R195). -/
theorem step_eq_runInstr : step s = runInstr s.dropIrq := by
  simp [step, cycle, hdebug, hirq]

theorem step_of_fetch_error {f : Fault} (h : s.dropIrq.fetch = .error f) : step s = .fault f := by
  rw [step_eq_runInstr hdebug hirq]
  simp only [runInstr, h]

theorem step_of_undefinedOpcode {w : Word} {t : State} (h : s.dropIrq.fetch = .ok (w, t))
    (hform : formOf t.cfg.opc (opcodeField w) = none) : step s = .fault .undefinedOpcode := by
  rw [step_eq_runInstr hdebug hirq]
  simp only [runInstr, h, decode_of_undefinedOpcode hform]

end NoInterrupt

/-- Settles O45: each clause is what the fetch answers, and for the last two that the word does not decode. -/
theorem fetchFaults : Obligations.FetchFaults := by
  unfold Obligations.FetchFaults
  refine fun s hdebug hirq => ⟨fun hpc => ?unaligned, fun hpc hnothing => ?unmapped,
    fun hpc hram hform => ?ram, fun hpc hdevice hform => ?device⟩
  case unaligned => exact step_of_fetch_error hdebug hirq (fetch_of_unaligned hpc)
  case unmapped => exact step_of_fetch_error hdebug hirq (fetch_of_unmapped hpc hnothing)
  case ram =>
    exact step_of_undefinedOpcode hdebug hirq (fetch_of_ram (s := s.dropIrq) hpc hram) hform
  case device =>
    exact step_of_undefinedOpcode hdebug hirq (fetch_of_device (s := s.dropIrq) hpc hdevice)
      (by simpa using hform)

end Sys2Proof.Proofs

/-! Proofs about `30_encoding.md`: the fields of a word, encoding and decoding, the opcode map, and the values of the immediate and of the shifted operand. -/

namespace Sys2Proof.Proofs

open Sys2Proof.Machine Sys2Proof.Laws

/-! ### The field layout of a word (R62, R63, R65): O3 -/

/-- The I-type word as shifted fields (R63). -/
theorem iType_eq_or (op : Byte) (rd rm : BitVec 4) (imm : Half) :
    iType op rd rm imm = op.setWidth 32 <<< 24 ||| rd.setWidth 32 <<< 20 |||
      rm.setWidth 32 <<< 16 ||| imm.setWidth 32 := by
  rw [← BitVec.setWidth_eq (iType op rd rm imm), iType]
  simp only [BitVec.setWidth_append_eq_shiftLeft_setWidth_or, BitVec.shiftLeft_or_distrib,
    ← BitVec.shiftLeft_add]

/-- The R-type word as shifted fields, its reserved bits 0 (R65). -/
theorem rType_eq_or (op : Byte) (rd rm rn : BitVec 4) (sh : BitVec 5) (dir bank : BitVec 2) :
    rType op rd rm rn sh dir bank = op.setWidth 32 <<< 24 ||| rd.setWidth 32 <<< 20 |||
      rm.setWidth 32 <<< 16 ||| rn.setWidth 32 <<< 12 ||| sh.setWidth 32 <<< 7 |||
      dir.setWidth 32 <<< 5 ||| bank.setWidth 32 <<< 3 := by
  have hreserved : (0 : BitVec 3).setWidth 32 = 0#32 := rfl
  rw [← BitVec.setWidth_eq (rType op rd rm rn sh dir bank), rType]
  simp only [BitVec.setWidth_append_eq_shiftLeft_setWidth_or, BitVec.shiftLeft_or_distrib,
    ← BitVec.shiftLeft_add, hreserved, BitVec.or_zero]

/-- The reserved bits 2:0 reach no field above them. -/
theorem extractLsb'_or_reserved (w : Word) (res : BitVec 3) {start len : Nat} (h : 3 ≤ start) :
    (w ||| res.setWidth 32).extractLsb' start len = w.extractLsb' start len := by
  apply BitVec.eq_of_getLsbD_eq
  intro i _
  simp [BitVec.getLsbD_of_ge res (start + i) (by omega)]

/-- Settles O3: the words are the model's `iType` and `rType`, and the reserved bits reach no field. -/
theorem wordFieldLayout : Obligations.WordFieldLayout := by
  unfold Obligations.WordFieldLayout
  refine ⟨fun op rd rm imm w hw => ?iType, fun op rd rm rn sh dir bank res w hw => ?rType⟩
  case iType =>
    rw [← iType_eq_or] at hw
    simp [hw]
  case rType =>
    rw [← rType_eq_or] at hw
    subst hw
    exact ⟨by rintro rfl; simp,
      (extractLsb'_or_reserved _ res (by omega)).trans (opcodeField_rType ..),
      (extractLsb'_or_reserved _ res (by omega)).trans (rdField_rType ..),
      (extractLsb'_or_reserved _ res (by omega)).trans (rmField_rType ..),
      (extractLsb'_or_reserved _ res (by omega)).trans (rnField_rType ..),
      (extractLsb'_or_reserved _ res (by omega)).trans (shField_rType ..),
      (extractLsb'_or_reserved _ res (by omega)).trans (dirField_rType ..),
      (extractLsb'_or_reserved _ res (by omega)).trans (bankField_rType ..)⟩

/-! ### The opcode byte selects the form (R70, R78) -/

theorem decode_of_form {opc : OpcodeMap} {w : Word} {f : Form}
    (h : formOf opc (opcodeField w) = some f) : decode opc w = .ok (instrOf f w) := by
  simp only [decode, h]

/-- What a word decodes to is what the form of its opcode byte reads in it. -/
theorem decode_ok_iff {opc : OpcodeMap} {w : Word} {i : Instr} :
    decode opc w = .ok i ↔ ∃ f, formOf opc (opcodeField w) = some f ∧ instrOf f w = i := by
  cases hf : formOf opc (opcodeField w) with
  | none => simp [decode_of_undefinedOpcode hf]
  | some f => simp [decode_of_form hf]

@[simp] theorem form_instrOf (f : Form) (w : Word) : (instrOf f w).form = f := by
  cases f <;> rfl

/-! ### Decoding an encoded instruction (R72, R75): O1 -/

section RTypeShifted
variable (op : Byte) (rd rm : BitVec 4) (op2 : Shifted)

@[simp] theorem opcodeField_rTypeShifted : opcodeField (rTypeShifted op rd rm op2) = op :=
  opcodeField_rType ..

@[simp] theorem rdField_rTypeShifted : rdField (rTypeShifted op rd rm op2) = rd :=
  rdField_rType ..

@[simp] theorem rmField_rTypeShifted : rmField (rTypeShifted op rd rm op2) = rm :=
  rmField_rType ..

end RTypeShifted

@[simp] theorem opcodeField_encode (opc : OpcodeMap) (i : Instr) :
    opcodeField (encode opc i) = opcodeOf opc i.form := by
  cases i <;> simp [encode]

/-- The operands of an instruction stand in the fields where its form reads them. -/
theorem instrOf_encode (opc : OpcodeMap) (i : Instr) : instrOf i.form (encode opc i) = i := by
  cases i <;> simp [encode, instrOf, Instr.form, rdOf, rmOf, bankOf]

/-- Settles O1: the opcode byte names the form again, and the form reads back the operands. -/
theorem decodeEncodeRoundTrip : Obligations.DecodeEncodeRoundTrip := by
  unfold Obligations.DecodeEncodeRoundTrip
  intro opc i hlawful
  have hform : formOf opc (opcodeField (encode opc i)) = some i.form := by
    rw [opcodeField_encode, formOf_opcodeOf hlawful]
  rw [decode_of_form hform, instrOf_encode]

/-! ### Fields under a mask -/

section Masked
variable {w m : Word}

theorem extractLsb'_and_of_ones {start len : Nat}
    (h : m.extractLsb' start len = BitVec.allOnes len) :
    (w &&& m).extractLsb' start len = w.extractLsb' start len := by
  rw [BitVec.extractLsb'_and, h, BitVec.and_allOnes]

theorem extractLsb'_and_of_zero {start len : Nat} (h : m.extractLsb' start len = 0) :
    (w &&& m).extractLsb' start len = 0 := by
  rw [BitVec.extractLsb'_and, h]
  exact BitVec.and_zero

theorem opcodeField_and (h : opcodeField m = BitVec.allOnes 8) :
    opcodeField (w &&& m) = opcodeField w := extractLsb'_and_of_ones h

theorem rdField_and (h : rdField m = BitVec.allOnes 4) : rdField (w &&& m) = rdField w :=
  extractLsb'_and_of_ones h

theorem rmField_and (h : rmField m = BitVec.allOnes 4) : rmField (w &&& m) = rmField w :=
  extractLsb'_and_of_ones h

theorem imm16Field_and (h : imm16Field m = BitVec.allOnes 16) :
    imm16Field (w &&& m) = imm16Field w := extractLsb'_and_of_ones h

theorem rnField_and (h : rnField m = BitVec.allOnes 4) : rnField (w &&& m) = rnField w :=
  extractLsb'_and_of_ones h

theorem shField_and (h : shField m = BitVec.allOnes 5) : shField (w &&& m) = shField w :=
  extractLsb'_and_of_ones h

theorem dirField_and (h : dirField m = BitVec.allOnes 2) : dirField (w &&& m) = dirField w :=
  extractLsb'_and_of_ones h

theorem bankField_and (h : bankField m = BitVec.allOnes 2) : bankField (w &&& m) = bankField w :=
  extractLsb'_and_of_ones h

theorem rdField_and_zero (h : rdField m = 0) : rdField (w &&& m) = 0 := extractLsb'_and_of_zero h

theorem rmField_and_zero (h : rmField m = 0) : rmField (w &&& m) = 0 := extractLsb'_and_of_zero h

theorem rnField_and_zero (h : rnField m = 0) : rnField (w &&& m) = 0 := extractLsb'_and_of_zero h

theorem shField_and_zero (h : shField m = 0) : shField (w &&& m) = 0 := extractLsb'_and_of_zero h

theorem dirField_and_zero (h : dirField m = 0) : dirField (w &&& m) = 0 :=
  extractLsb'_and_of_zero h

theorem bankField_and_zero (h : bankField m = 0) : bankField (w &&& m) = 0 :=
  extractLsb'_and_of_zero h

end Masked

/-! ### The bits a form uses (R73, R76): O5 -/

/-- Every form uses its opcode byte. -/
theorem opcodeField_and_usedBits (f : Form) (w : Word) :
    opcodeField (w &&& usedBits f) = opcodeField w :=
  opcodeField_and (by cases f <;> rfl)

/-- A form reads its instruction from the bits it uses alone: every field it reads is all ones in its mask. -/
theorem instrOf_and_usedBits (f : Form) (w : Word) :
    instrOf f (w &&& usedBits f) = instrOf f w := by
  cases f
  all_goals
    simp (disch := decide) only [instrOf, rdOf, rmOf, bankOf, shiftedOf, rdField_and, rmField_and,
      imm16Field_and, rnField_and, shField_and, dirField_and, bankField_and]

/-- Settles O5: two words with the same used bits have one opcode byte and one instruction. -/
theorem ignoredFieldsDoNotMatter : Obligations.IgnoredFieldsDoNotMatter := by
  unfold Obligations.IgnoredFieldsDoNotMatter
  intro opc f w w2 hform hagree
  have hopcode : opcodeField w2 = opcodeField w := by
    rw [← opcodeField_and_usedBits f w2, ← hagree, opcodeField_and_usedBits]
  have hinstr : instrOf f w2 = instrOf f w := by
    rw [← instrOf_and_usedBits f w2, ← hagree, instrOf_and_usedBits]
  rw [decode_of_form hform, decode_of_form (hopcode ▸ hform), hinstr]

/-! ### The default opcode map (D1): O4 -/

/-- Settles O4, form by form over the finite table. -/
theorem standardOpcodesDistinct : Obligations.StandardOpcodesDistinct := by
  unfold Obligations.StandardOpcodesDistinct
  refine ⟨by decide, fun f => ?_⟩
  cases f <;> rfl

/-- In the default map no form has a second opcode byte. -/
theorem opcodeOf_of_formOf {op : Byte} {f : Form} (h : formOf standardOpc op = some f) :
    opcodeOf standardOpc f = op := by
  have hrows : ∀ row ∈ standardOpc, opcodeOf standardOpc row.1 = row.2 := by decide
  obtain ⟨row, hrow, rfl⟩ := Option.map_eq_some_iff.mp h
  rw [hrows row (List.mem_of_find?_eq_some hrow)]
  simpa using List.find?_some hrow

/-! ### Encoding a decoded word (R73, R75): O2 -/

/-- A word is the I-type word of its fields (R63). -/
theorem iType_fields (w : Word) :
    iType (opcodeField w) (rdField w) (rmField w) (imm16Field w) = w := by
  simp only [iType, opcodeField, rdField, rmField, imm16Field]
  rw [BitVec.extractLsb'_append_extractLsb'_eq_extractLsb' (by omega),
    BitVec.extractLsb'_append_extractLsb'_eq_extractLsb' (by omega),
    BitVec.extractLsb'_append_extractLsb'_eq_extractLsb' (by omega)]
  exact BitVec.extractLsb'_eq_self

/-- A word with reserved bits 0 is the R-type word of its fields (R65). -/
theorem rType_fields {w : Word} (h : w.extractLsb' 0 3 = 0) :
    rType (opcodeField w) (rdField w) (rmField w) (rnField w) (shField w) (dirField w)
      (bankField w) = w := by
  simp only [rType, opcodeField, rdField, rmField, rnField, shField, dirField, bankField]
  rw [← h, BitVec.extractLsb'_append_extractLsb'_eq_extractLsb' (by omega),
    BitVec.extractLsb'_append_extractLsb'_eq_extractLsb' (by omega),
    BitVec.extractLsb'_append_extractLsb'_eq_extractLsb' (by omega),
    BitVec.extractLsb'_append_extractLsb'_eq_extractLsb' (by omega),
    BitVec.extractLsb'_append_extractLsb'_eq_extractLsb' (by omega),
    BitVec.extractLsb'_append_extractLsb'_eq_extractLsb' (by omega),
    BitVec.extractLsb'_append_extractLsb'_eq_extractLsb' (by omega)]
  exact BitVec.extractLsb'_eq_self

/-- No R-type form uses the reserved bits. -/
theorem reserved_and_usedBits {f : Form} (w : Word) (hR : isRType f = true) :
    (w &&& usedBits f).extractLsb' 0 3 = 0 :=
  extractLsb'_and_of_zero (by cases f <;> cases hR <;> rfl)

/-- Encoding what a form reads in a word gives the bits the form uses: field by field, the mask is all ones where the form reads and 0 where `encode` writes 0. -/
theorem encode_instrOf {opc : OpcodeMap} {f : Form} {w : Word}
    (h : opcodeOf opc f = opcodeField w) : encode opc (instrOf f w) = w &&& usedBits f := by
  cases hR : isRType f with
  | false =>
    rw [← iType_fields (w &&& usedBits f)]
    cases f <;> cases hR
    all_goals
      simp (disch := decide) only [encode, instrOf, Instr.form, h, rdOf, rmOf,
        reg_number_ofNumber, opcodeField_and, rdField_and, rmField_and, imm16Field_and,
        rdField_and_zero, rmField_and_zero]
  | true =>
    rw [← rType_fields (reserved_and_usedBits w hR)]
    cases f <;> cases hR
    all_goals
      simp (disch := decide) only [encode, instrOf, Instr.form, h, rdOf, rmOf, bankOf, shiftedOf,
        rTypeShifted, reg_number_ofNumber, shiftDir_number_ofNumber, bank_number_ofNumber,
        opcodeField_and, rdField_and, rmField_and, rnField_and, shField_and, dirField_and,
        bankField_and, rdField_and_zero, rmField_and_zero, rnField_and_zero, shField_and_zero,
        dirField_and_zero, bankField_and_zero]

/-- Settles O2: the form's opcode byte is the word's, so the encoding is the word's used bits. -/
theorem decodedWordReencodes : Obligations.DecodedWordReencodes := by
  unfold Obligations.DecodedWordReencodes
  intro w i h
  obtain ⟨f, hform, rfl⟩ := decode_ok_iff.mp h
  rw [form_instrOf, encode_instrOf (opcodeOf_of_formOf hform)]

/-! ### The immediate operand (R64): O7 -/

/-- Settles O7: sign extension keeps the signed value, the bits below 16, and above them has copies of the most significant bit. -/
theorem immediateIsSignExtended : Obligations.ImmediateIsSignExtended := by
  unfold Obligations.ImmediateIsSignExtended immOperand
  refine fun imm => ⟨BitVec.toInt_signExtend_of_le (by omega), ?low, fun k hk hk32 => ?high⟩
  case low =>
    apply BitVec.eq_of_getLsbD_eq
    intro k hk
    have hk32 : k < 32 := by omega
    rw [BitVec.getLsbD_extractLsb', Nat.zero_add, BitVec.getLsbD_signExtend, if_pos hk]
    simp [hk, hk32]
  case high =>
    rw [BitVec.getLsbD_signExtend, if_neg (by omega), BitVec.msb_eq_getLsbD_last]
    simp [hk32]

/-! ### The shifted operand (R67, R68): O8 -/

section ShiftBy
variable (v : Word) (k : Nat)

theorem shiftBy_shl_toNat : (shiftBy .shl v k).toNat = v.toNat * 2 ^ k % 2 ^ 32 := by
  rw [shiftBy, BitVec.toNat_shiftLeft, Nat.shiftLeft_eq]

theorem shiftBy_shr_toNat : (shiftBy .shr v k).toNat = v.toNat / 2 ^ k := by
  rw [shiftBy, BitVec.toNat_ushiftRight, Nat.shiftRight_eq_div_pow]

theorem shiftBy_srx_toInt : (shiftBy .srx v k).toInt = v.toInt / 2 ^ k := by
  rw [shiftBy, BitVec.toInt_sshiftRight, Int.shiftRight_eq_div_pow, Nat.cast_pow, Nat.cast_ofNat]

/-- At amount 0 the part shifted left is shifted out, so the rule of D11 for 0 is this one too. -/
theorem shiftBy_ror {k : Nat} (hk : k < 32) :
    shiftBy .ror v k = v >>> k ||| v <<< (32 - k) := by
  rw [shiftBy, BitVec.rotateRight_def, Nat.mod_eq_of_lt hk]

theorem shiftBy_ror_zero : shiftBy .ror v 0 = v := by
  simp [shiftBy_ror]

end ShiftBy

/-- Settles O8: one rule for each direction; the rotate's amount 0 is its own case. -/
theorem shiftedOperandValue : Obligations.ShiftedOperandValue := by
  unfold Obligations.ShiftedOperandValue State.shifted
  refine fun s rn sh => ⟨shiftBy_shl_toNat .., shiftBy_shr_toNat .., shiftBy_srx_toInt .., ?ror⟩
  split
  next hzero => rw [hzero]; exact shiftBy_ror_zero _
  next => exact shiftBy_ror _ sh.isLt

end Sys2Proof.Proofs

/-! Proofs about `40_load_store.md`: what a data access answers at each kind of address, and from it what the load forms and the store forms do. -/

namespace Sys2Proof.Proofs

open Sys2Proof.Machine Sys2Proof.Laws

/-! ### Data accesses: the converses of `loadData_cases` and `storeData_cases` (R44 to R46, R52) -/

section Access
variable {s : State} {a : Word} (v : Word)

theorem loadData_of_unaligned (ha : a.toNat % 4 ≠ 0) : s.loadData a = .error .unalignedData := by
  rw [State.loadData, if_neg fun haligned => ha ((aligned_iff a).mp haligned)]

theorem storeData_of_unaligned (ha : a.toNat % 4 ≠ 0) :
    s.storeData a v = .error .unalignedData := by
  rw [State.storeData, if_neg fun haligned => ha ((aligned_iff a).mp haligned)]

theorem loadData_of_unmapped (ha : aligned a = true) (hk : kindAt s.cfg.memMap a = .nothing) :
    s.loadData a = .error .unmappedAccess := by
  simp only [State.loadData, ha, if_true, State.memRead, hk]

theorem storeData_of_unmapped (ha : aligned a = true) (hk : kindAt s.cfg.memMap a = .nothing) :
    s.storeData a v = .error .unmappedAccess := by
  simp only [State.storeData, ha, if_true, State.memWrite, hk]

theorem loadData_of_device (ha : aligned a = true) (hk : kindAt s.cfg.memMap a = .device) :
    s.loadData a = .ok (s.deviceAnswer, s.deviceRead a) := by
  simp only [State.loadData, ha, if_true, State.memRead, hk]

theorem storeData_of_device (ha : aligned a = true) (hk : kindAt s.cfg.memMap a = .device) :
    s.storeData a v = .ok (s.deviceWrite a v) := by
  simp only [State.storeData, ha, if_true, State.memWrite, hk]

/-- With `storeData_of_ram`, which names the parameters and memory alone, this gives the whole state. -/
theorem storeData_eq_of_ram (ha : aligned a = true) (hk : kindAt s.cfg.memMap a = .ram) :
    s.storeData a v = .ok { s with mem := Memory.setWord s.cfg.endian s.mem a.toNat v } := by
  simp only [State.storeData, ha, if_true, State.memWrite, hk]

end Access

/-- A device that has a listed answer gives it and uses it up (R44, R49, log 11). -/
theorem deviceRead_of_listed {s : State} {x : Word} {rest : List Word} (a : Word)
    (h : s.devIn = x :: rest) : s.deviceAnswer = x ∧ (s.deviceRead a).devIn = rest := by
  simp only [State.deviceAnswer, State.deviceRead, h, and_self]

/-- What keeps the shared registers and both banks keeps every register. -/
theorem regsKept_of_banks {s t : State} (hg : t.g = s.g) (hs : t.bankS = s.bankS)
    (hi : t.bankI = s.bankI) : RegsKept s t :=
  fun _ _ hr => readIn_congr hg hs hi hr

/-- A device's read changes no register. -/
theorem regsKept_deviceRead (s : State) (a : Word) : RegsKept s (s.deviceRead a) :=
  regsKept_of_banks (deviceRead_g s a) (deviceRead_bankS s a) (deviceRead_bankI s a)

/-! ### Loads and stores: the converses of `loadInto_next` and `storeFrom_next` (R100) -/

section Ends
variable {s t : State} {rd : Reg} {ea v : Word} {f : Fault}

theorem loadInto_of_ok (h : s.loadData ea = .ok (v, t)) :
    loadInto s rd ea = .next (t.finish rd v) := by
  simp only [loadInto, h]

theorem loadInto_of_error (h : s.loadData ea = .error f) : loadInto s rd ea = .fault f := by
  simp only [loadInto, h]

theorem storeFrom_of_ok (h : s.storeData ea (s.readReg rd) = .ok t) :
    storeFrom s rd ea = .next t.advance := by
  simp only [storeFrom, h]

theorem storeFrom_of_error (h : s.storeData ea (s.readReg rd) = .error f) :
    storeFrom s rd ea = .fault f := by
  simp only [storeFrom, h]

end Ends

/-! ### LDR (R100 to R103): O26 -/

/-- A load at any address: the access decides between completing and a fault, and `finish` is the only write. The device's read changes no register, so what `finish` does after it is what it does to `s`. -/
theorem loadInto_spec (s : State) (rd : Reg) (ea : Word) :
    LoadSpec s rd ea (loadInto s rd ea) := by
  refine ⟨fun ha => loadInto_of_error (loadData_of_unaligned ha), fun ha hk => ?unmapped,
    fun ha hk => ?ram, fun ha hk => ?device⟩
  all_goals have haligned := (aligned_iff ea).mpr ha
  case unmapped => exact loadInto_of_error (loadData_of_unmapped haligned hk)
  case ram =>
    exact ⟨_, loadInto_of_ok (loadData_of_ram haligned hk), finish_flags ..,
      finish_writesReg rd _ rfl rfl rfl rfl rfl rfl ⟨rfl, rfl, rfl, rfl⟩⟩
  case device =>
    have hmode : (s.deviceRead ea).mode = s.mode := mode_congr (deviceRead_mcr s ea)
    obtain ⟨hpc, hrd, hregs, hmcr, hmem, hcfg, hirq, hdevIn, hdevLog⟩ :=
      finish_writesReg (s := s.deviceRead ea) rd s.deviceAnswer rfl rfl rfl rfl rfl rfl
        ⟨rfl, rfl, rfl, rfl⟩
    rw [hmode] at hrd hregs
    simp only [deviceRead_pc, deviceRead_mcr, deviceRead_cfg, deviceRead_irqIn,
      deviceRead_devLog] at hpc hmcr hcfg hirq hdevLog
    refine ⟨_, s.deviceAnswer, loadInto_of_ok (loadData_of_device haligned hk), by simp, hmcr,
      fun b => by simp, fun x rest hlisted => ?answer, hdevLog, hirq, hcfg, hpc,
      fun hne => ?written, fun m r hr hother => ?kept⟩
    case answer => rw [hdevIn]; exact deviceRead_of_listed ea hlisted
    case written => rw [State.readReg, mode_congr hmcr, hrd hne]
    case kept => exact (hregs m r hr hother).trans (regsKept_deviceRead s ea m r hr)

/-- Settles O26: each of the three forms is `loadInto` at its own address. -/
theorem ldrResult : Obligations.LdrResult := by
  unfold Obligations.LdrResult
  exact ⟨fun rd imm s => ⟨rfl, loadInto_spec s rd (eaAbsolute imm)⟩,
    fun rd rm imm s => ⟨rfl, loadInto_spec s rd (s.eaDisplaced rm imm)⟩,
    fun rd rm op2 s => ⟨rfl, loadInto_spec s rd (s.eaIndexed rm op2)⟩⟩

/-! ### STR (R100, R104 to R106): O27 -/

/-- A store at any address, in a canonical memory: the access decides between completing and a fault, and beside pc it changes memory or the record alone. -/
theorem storeFrom_spec {s : State} (rd : Reg) (ea : Word) (hwf : Canonical s) :
    StoreSpec s rd ea (storeFrom s rd ea) := by
  refine ⟨fun ha => storeFrom_of_error (storeData_of_unaligned _ ha), fun ha hk => ?unmapped,
    fun ha hk => ?ram, fun ha hk => ?device⟩
  all_goals have haligned := (aligned_iff ea).mpr ha
  case unmapped => exact storeFrom_of_error (storeData_of_unmapped _ haligned hk)
  case ram =>
    have hbound := aligned_bound haligned
    exact ⟨_, storeFrom_of_ok (storeData_eq_of_ram _ haligned hk), word_setWord _ _ hwf hbound,
      fun _ hout => byte_setWord_outside _ _ hwf hbound hout, rfl,
      regsKept_of_banks rfl rfl rfl, rfl, rfl, ⟨rfl, rfl, rfl, rfl⟩⟩
  case device =>
    exact ⟨_, storeFrom_of_ok (storeData_of_device _ haligned hk), fun _ => rfl, rfl, rfl, rfl,
      rfl, rfl, regsKept_of_banks rfl rfl rfl, rfl, rfl⟩

/-- Settles O27: each of the three forms is `storeFrom` at its own address. -/
theorem strResult : Obligations.StrResult := by
  unfold Obligations.StrResult
  exact ⟨fun rd imm _ hwf => ⟨rfl, storeFrom_spec rd (eaAbsolute imm) hwf⟩,
    fun rd rm imm s hwf => ⟨rfl, storeFrom_spec rd (s.eaDisplaced rm imm) hwf⟩,
    fun rd rm op2 s hwf => ⟨rfl, storeFrom_spec rd (s.eaIndexed rm op2) hwf⟩⟩

end Sys2Proof.Proofs

/-! Proofs about `41_move.md`: MOVT and the MOVs of an immediate, of a shifted register, from a named bank and to a named bank. -/

namespace Sys2Proof.Proofs

open Sys2Proof.Machine Sys2Proof.Laws

/-! ### What each MOV form answers: the converses of `readBanked_cases` and `writeBanked_cases` for the banked ones -/

section Exec
variable {s t : State} {k : Bank} {rm : Reg} {v : Word} (rd : Reg)

theorem exec_movI (imm : Half) : exec (.movI rd imm) s = .next (s.finish rd (immOperand imm)) := rfl

theorem exec_movR (op2 : Shifted) : exec (.movR rd op2) s = .next (s.finish rd (s.shifted op2)) := rfl

theorem exec_movtI (imm : Half) :
    exec (.movtI rd imm) s = .next (s.finish rd (imm ++ (s.readReg rd).extractLsb' 0 16)) := rfl

theorem exec_movRb_of_ok (h : s.readBanked k rm = .ok (v, t)) :
    exec (.movRb rd k rm) s = .next (t.finish rd v) := by
  simp only [exec, execMovRb, h]

end Exec

theorem exec_movWb_of_ok {s t : State} {k : Bank} {rd rm : Reg}
    (h : s.advance.writeBanked k rd (s.readReg rm) = .ok t) :
    exec (.movWb k rd rm) s = .next t := by
  simp only [exec, execMovWb, h]

/-! ### Rd from a value (R19, R20, R110 to R112): O28, O29 -/

/-- `finish` writes Rd or pc and nothing else, the flags included (R115). -/
theorem finish_spec (s : State) (rd : Reg) (v : Word) :
    (s.finish rd v).flags = s.flags ∧ WritesReg s.mode rd v s (s.finish rd v) :=
  ⟨finish_flags s rd v, finish_writesReg rd v rfl rfl rfl rfl rfl rfl ⟨rfl, rfl, rfl, rfl⟩⟩

/-- Settles O28: both forms are `finish` with their operand's value. -/
theorem movResult : Obligations.MovResult := by
  unfold Obligations.MovResult
  exact ⟨fun rd imm s => ⟨rfl, _, exec_movI rd imm, finish_spec s rd (immOperand imm)⟩,
    fun rd op2 s => ⟨rfl, _, exec_movR rd op2, finish_spec s rd (s.shifted op2)⟩⟩

/-- Settles O29: `finish` with the immediate placed above the lower half of x[rd]. -/
theorem movtResult : Obligations.MovtResult := by
  unfold Obligations.MovtResult
  intro rd imm s
  obtain ⟨hflags, hwrites⟩ := finish_spec s rd (imm ++ (s.readReg rd).extractLsb' 0 16)
  exact ⟨rfl, _, _, exec_movtI rd imm, hflags, BitVec.extractLsb'_append_eq_left,
    BitVec.extractLsb'_append_eq_right, hwrites⟩

/-! ### MOV from a named bank (R16, R113): O30, O31 -/

/-- A banked read that answers changes at most the count of free values, so the MOV that makes it writes Rd alone. -/
theorem exec_movRb_spec {s t : State} {k : Bank} {rm : Reg} {v : Word} (rd : Reg)
    (h : s.readBanked k rm = .ok (v, t)) :
    ∃ t', exec (.movRb rd k rm) s = .next t' ∧ t'.flags = s.flags ∧ WritesReg s.mode rd v s t' := by
  refine ⟨_, exec_movRb_of_ok rd h, ?_⟩
  have ht : t = s ∨ t = s.drawOne := by
    rcases readBanked_cases h with ⟨_, _, ht⟩ | ⟨_, _, ht⟩ | ⟨_, _, _, ht⟩ | ⟨_, _, _, ht⟩
    · exact .inl ht
    · exact .inl ht
    · exact .inr ht
    · exact .inr ht
  rcases ht with rfl | rfl
  · exact finish_spec _ rd v
  · exact ⟨finish_flags s.drawOne rd v,
      finish_writesReg rd v rfl rfl rfl rfl rfl rfl ⟨rfl, rfl, rfl, rfl⟩⟩

/-- Settles O30: the read of a mode's bank answers in either mode. -/
theorem movFromModeBank : Obligations.MovFromModeBank := by
  unfold Obligations.MovFromModeBank
  exact fun rd rm s => ⟨rfl, rfl, exec_movRb_spec rd rfl, exec_movRb_spec rd rfl,
    readIn_of_shared s .irq .sup, rfl⟩

/-- Settles O31: the value read is a free word with the named bits of the register merged in. -/
theorem movFromStatusRegisters : Obligations.MovFromStatusRegisters := by
  unfold Obligations.MovFromStatusRegisters
  refine fun rd s => ⟨?flags, ?mcr⟩
  case flags =>
    obtain ⟨t, hexec, hflags, hwrites⟩ := exec_movRb_spec (k := .bank3) (rm := .r0) (s := s) rd rfl
    exact ⟨t, _, hexec, hflags, nzcvOf_merge _ s.flags, hwrites⟩
  case mcr =>
    obtain ⟨t, hexec, hflags, hwrites⟩ := exec_movRb_spec (k := .bank3) (rm := .r1) (s := s) rd rfl
    exact ⟨t, _, hexec, hflags, merge_and mcrNamedMask _ s.mcr, hwrites⟩

/-! ### MOV to a named bank (R16, R114): O33, O34 -/

/-- `finish_writesReg` for a bank that need not be the current mode's: pc is advanced, then the register of the named mode is written. -/
theorem advance_writeIn_writesReg (s : State) (m : Mode) (rd : Reg) (v : Word) :
    WritesReg m rd v s (s.advance.writeIn m rd v) := by
  refine ⟨by simp, readIn_writeIn_same s.advance m v, fun m' r' hr' hother => ?kept, by simp,
    fun a => by simp, by simp [EnvKept]⟩
  case kept =>
    calc (s.advance.writeIn m rd v).readIn m' r'
      _ = s.advance.readIn m' r' := readIn_writeIn_other s.advance v hr' hother
      _ = s.readIn m' r' := readIn_congr (s := s) (t := s.advance) rfl rfl rfl hr'

/-- Settles O33: the write of a mode's bank answers in either mode. -/
theorem movToModeBank : Obligations.MovToModeBank := by
  unfold Obligations.MovToModeBank
  exact fun rd rm s => ⟨rfl, rfl,
    ⟨_, exec_movWb_of_ok rfl, writeIn_flags .., advance_writeIn_writesReg s .sup rd _⟩,
    ⟨_, exec_movWb_of_ok rfl, writeIn_flags .., advance_writeIn_writesReg s .irq rd _⟩⟩

/-- A bit that the mask selects has the new value. -/
theorem getLsbD_merge_of_mask {mask : Word} {i : Nat} (old new : Word)
    (h : mask.getLsbD i = true) : (merge mask old new).getLsbD i = new.getLsbD i := by
  rw [getLsbD_merge, if_pos h]

/-- MCR.I is a named field, so a write of mcr sets it (R28, R33). -/
@[simp] theorem writeMcr_intEnabled (s : State) (v : Word) :
    (s.writeMcr v).intEnabled = v.getLsbD 0 :=
  getLsbD_merge_of_mask s.mcr v (by decide)

/-- MCR.S is a named field, so a write of mcr sets the mode (R29, R33). -/
@[simp] theorem writeMcr_mode (s : State) (v : Word) :
    (s.writeMcr v).mode = if v.getLsbD 1 then .sup else .irq := by
  rw [State.mode, writeMcr_mcr, getLsbD_merge_of_mask s.mcr v (by decide)]

/-- The write of flags merges the value in under the mask of the four flags. -/
theorem writeFlags_becomes (s : State) (v : Word) : FlagsBecome s (s.writeFlags v) (nzcvOf v) :=
  ⟨nzcvOf_merge s.flags v, merge_and_not nzcvMask s.flags v⟩

/-- Settles O34: after `advance`, the write of the one status register under its mask. -/
theorem movToStatusRegisters : Obligations.MovToStatusRegisters := by
  unfold Obligations.MovToStatusRegisters
  refine fun rm s => ⟨⟨_, exec_movWb_of_ok rfl, ?flags⟩, ⟨_, exec_movWb_of_ok rfl, ?mcr⟩⟩
  case flags =>
    exact ⟨writeFlags_becomes s.advance _, rfl, regsKept_of_banks rfl rfl rfl, rfl, fun _ => rfl,
      rfl, rfl, rfl, rfl⟩
  case mcr =>
    exact ⟨merge_and mcrNamedMask s.mcr _, merge_and_of_disjoint s.mcr _ (by decide),
      writeMcr_intEnabled s.advance _, writeMcr_mode s.advance _, rfl,
      regsKept_of_banks rfl rfl rfl, rfl, fun _ => rfl, rfl, rfl, rfl, rfl⟩

end Sys2Proof.Proofs

/-! Proofs about `42_arithmetic.md`: the result and the flags of `addC` and `subB`, and the instructions that write them. -/

namespace Sys2Proof.Proofs

open Sys2Proof.Machine Sys2Proof.Laws

/-! ### Signs and signed overflow -/

/-- Bit 31 is the sign. -/
theorem getLsbD_31_eq_true_iff (w : Word) : w.getLsbD 31 = true ↔ w.toInt < 0 := by
  have hmsb : w.msb = w.getLsbD 31 := BitVec.msb_eq_getLsbD_last w
  rw [← hmsb, BitVec.msb_eq_toInt, decide_eq_true_iff]

theorem getLsbD_31_eq_iff (v w : Word) :
    v.getLsbD 31 = w.getLsbD 31 ↔ (v.toInt < 0 ↔ w.toInt < 0) := by
  rw [Bool.eq_iff_iff, getLsbD_31_eq_true_iff, getLsbD_31_eq_true_iff]

theorem signedOverflow_iff (x : Int) :
    signedOverflow x = true ↔ ¬(-2 ^ 31 ≤ x ∧ x ≤ 2 ^ 31 - 1) := by
  rw [signedOverflow, decide_eq_true_iff]
  omega

/-- An exact result of 33 signed bits overflows exactly when wrapping it to 32 bits turns its sign. -/
theorem signedOverflow_iff_sign {x : Int} {r : Word} (hr : r.toInt = x.bmod (2 ^ 32))
    (hlo : -2 ^ 32 ≤ x) (hhi : x < 2 ^ 32) :
    signedOverflow x = true ↔ ¬(r.toInt < 0 ↔ x < 0) := by
  rw [signedOverflow_iff, hr, Int.bmod_def]
  omega

/-- What a word is worth modulo 2^32 does not depend on whether it is read signed. -/
theorem toInt_emod (w : Word) : w.toInt % 2 ^ 32 = (w.toNat : Int) := by
  have := w.isLt
  rw [BitVec.toInt_eq_toNat_cond]
  omega

/-! ### Sums (R120): O10 -/

section Sum
variable (a b : Word) (cin : Bool)

theorem addC_toInt :
    (addC a b cin).1.toInt = (a.toInt + b.toInt + cin.toNat).bmod (2 ^ 32) := by
  have ha := toInt_emod a
  have hb := toInt_emod b
  simp only [addC, BitVec.toInt_ofNat', Int.bmod_def]
  omega

theorem addC_spec : AddSpec a b cin (addC a b cin).1 (addC a b cin).2 :=
  ⟨BitVec.toNat_ofNat _ _, rfl, decide_eq_true_iff, decide_eq_true_iff, signedOverflow_iff _⟩

/-- Operands of one sign give the exact sum that sign; operands of two signs do not overflow. -/
theorem addC_v_iff : (addC a b cin).2.v = true ↔
    a.getLsbD 31 = b.getLsbD 31 ∧ (addC a b cin).1.getLsbD 31 ≠ a.getLsbD 31 := by
  have hcin : cin.toNat ≤ 1 := Bool.toNat_le cin
  have ⟨_, _⟩ : -2 ^ 31 ≤ a.toInt ∧ a.toInt < 2 ^ 31 := ⟨a.le_toInt, a.toInt_lt⟩
  have ⟨_, _⟩ : -2 ^ 31 ≤ b.toInt ∧ b.toInt < 2 ^ 31 := ⟨b.le_toInt, b.toInt_lt⟩
  have hsign := signedOverflow_iff_sign (addC_toInt a b cin) (by omega) (by omega)
  rw [ne_eq, getLsbD_31_eq_iff, getLsbD_31_eq_iff]
  change signedOverflow (a.toInt + b.toInt + cin.toNat) = true ↔ _
  rw [signedOverflow_iff] at hsign ⊢
  omega

end Sum

/-- Settles O10: V from the signs of the operands and of the wrapped sum. -/
theorem additionResultAndFlags : Obligations.AdditionResultAndFlags := by
  unfold Obligations.AdditionResultAndFlags
  exact fun a b cin => ⟨addC_spec a b cin, addC_v_iff a b cin⟩

/-! ### Differences (R121): O11 -/

section Difference
variable (co : SubCOut) (a b : Word) (bin : Bool)

theorem subB_toInt :
    (subB co a b bin).1.toInt = (a.toInt - b.toInt - bin.toNat).bmod (2 ^ 32) := by
  have ha := toInt_emod a
  have hb := toInt_emod b
  simp only [subB, BitVec.toInt_ofInt, Int.bmod_def]
  omega

/-- The unsigned difference is exact: modulo 2^32 it is the result, and its sign is the borrow. -/
theorem subB_spec : SubSpec co a b bin (subB co a b bin).1 (subB co a b bin).2 := by
  refine ⟨?result, rfl, decide_eq_true_iff, ?carry, signedOverflow_iff _⟩
  case result =>
    simp only [subB, BitVec.toNat_ofInt]
    omega
  case carry =>
    cases co with
    | borrow => simp only [subB, decide_eq_true_iff]; omega
    | notBorrow => simp only [subB, decide_eq_true_iff]; omega

/-- Operands of two signs give the exact difference the sign of the first; operands of one sign do not overflow. -/
theorem subB_v_iff : (subB co a b bin).2.v = true ↔
    a.getLsbD 31 ≠ b.getLsbD 31 ∧ (subB co a b bin).1.getLsbD 31 ≠ a.getLsbD 31 := by
  have hbin : bin.toNat ≤ 1 := Bool.toNat_le bin
  have ⟨_, _⟩ : -2 ^ 31 ≤ a.toInt ∧ a.toInt < 2 ^ 31 := ⟨a.le_toInt, a.toInt_lt⟩
  have ⟨_, _⟩ : -2 ^ 31 ≤ b.toInt ∧ b.toInt < 2 ^ 31 := ⟨b.le_toInt, b.toInt_lt⟩
  have hsign := signedOverflow_iff_sign (subB_toInt co a b bin) (by omega) (by omega)
  rw [ne_eq, ne_eq, getLsbD_31_eq_iff, getLsbD_31_eq_iff]
  change signedOverflow (a.toInt - b.toInt - bin.toNat) = true ↔ _
  rw [signedOverflow_iff] at hsign ⊢
  omega

/-- The two conventions are complements, and no other part of the result reads them. -/
theorem subB_notBorrow : subB .notBorrow a b bin =
    ((subB .borrow a b bin).1,
      { (subB .borrow a b bin).2 with c := !(subB .borrow a b bin).2.c }) := by
  simp [subB, ← decide_not]

end Difference

/-- Settles O11: V from the signs of the operands and of the wrapped difference; C alone reads `SUB_C_OUT`. -/
theorem subtractionResultAndFlags : Obligations.SubtractionResultAndFlags := by
  unfold Obligations.SubtractionResultAndFlags
  exact fun a b bin => ⟨fun co => ⟨subB_spec co a b bin, subB_v_iff co a b bin⟩,
    subB_notBorrow a b bin⟩

/-! ### Instructions that write an arithmetic result (R123) -/

/-- The converse of `arithResult_next`: an arithmetic result writes Rd or pc and the four flags, and nothing else. -/
theorem arithResult_spec (s : State) (rd : Reg) (x : Word × Nzcv) :
    ∃ t, arithResult s rd x = .next t ∧ WritesReg s.mode rd x.1 s t ∧ FlagsBecome s t x.2 := by
  refine ⟨(s.setNzcv x.2).finish rd x.1, rfl,
    finish_writesReg rd x.1 rfl rfl rfl rfl rfl rfl ⟨rfl, rfl, rfl, rfl⟩, ?nzcv, ?reserved⟩
  case nzcv =>
    rw [State.nzcv, finish_flags]
    exact setNzcv_nzcv s x.2
  case reserved =>
    rw [finish_flags]
    exact setNzcv_reserved s x.2

section Exec
variable {i : Instr} {s : State} {rd : Reg} {a b : Word} {c : Bool}

/-- A form that writes a sum: what its obligation says beside the encoding. -/
theorem exec_sum (h : exec i s = arithResult s rd (addC a b c)) :
    ∃ r f t, exec i s = .next t ∧ AddSpec a b c r f ∧
      WritesReg s.mode rd r s t ∧ FlagsBecome s t f := by
  obtain ⟨t, hnext, hwrites, hflags⟩ := arithResult_spec s rd (addC a b c)
  exact ⟨_, _, t, h.trans hnext, addC_spec a b c, hwrites, hflags⟩

/-- A form that writes a difference: what its obligation says beside the encoding. -/
theorem exec_difference (h : exec i s = arithResult s rd (subB s.cfg.subCOut a b c)) :
    ∃ r f t, exec i s = .next t ∧ SubSpec s.cfg.subCOut a b c r f ∧
      WritesReg s.mode rd r s t ∧ FlagsBecome s t f := by
  obtain ⟨t, hnext, hwrites, hflags⟩ := arithResult_spec s rd (subB s.cfg.subCOut a b c)
  exact ⟨_, _, t, h.trans hnext, subB_spec s.cfg.subCOut a b c, hwrites, hflags⟩

end Exec

/-! ### ADD, ADDC (R124 to R127): O14, O15 -/

/-- Settles O14: both forms write `addC` of Rm and the operand, carry-in 0. -/
theorem addResult : Obligations.AddResult := by
  unfold Obligations.AddResult
  exact ⟨fun _ _ _ _ => ⟨rfl, exec_sum rfl⟩, fun _ _ _ _ => ⟨rfl, exec_sum rfl⟩⟩

/-- Settles O15: both forms write `addC` of Rm and the operand, carry-in the C before the instruction. -/
theorem addcResult : Obligations.AddcResult := by
  unfold Obligations.AddcResult
  exact ⟨fun _ _ _ _ => ⟨rfl, exec_sum rfl⟩, fun _ _ _ _ => ⟨rfl, exec_sum rfl⟩⟩

/-! ### SUB, SUBC, RSUB, RSUBC (R128 to R135): O16 to O19 -/

/-- Settles O16: both forms write `subB` of Rm and the operand, borrow-in 0. -/
theorem subResult : Obligations.SubResult := by
  unfold Obligations.SubResult
  exact ⟨fun _ _ _ _ => ⟨rfl, exec_difference rfl⟩, fun _ _ _ _ => ⟨rfl, exec_difference rfl⟩⟩

/-- Settles O17: both forms write `subB` of Rm and the operand, borrow-in the C before the instruction. -/
theorem subcResult : Obligations.SubcResult := by
  unfold Obligations.SubcResult
  exact ⟨fun _ _ _ _ => ⟨rfl, exec_difference rfl⟩, fun _ _ _ _ => ⟨rfl, exec_difference rfl⟩⟩

/-- Settles O18: both forms write `subB` of the operand and Rm, borrow-in 0. -/
theorem rsubResult : Obligations.RsubResult := by
  unfold Obligations.RsubResult
  exact ⟨fun _ _ _ _ => ⟨rfl, exec_difference rfl⟩, fun _ _ _ _ => ⟨rfl, exec_difference rfl⟩⟩

/-- Settles O19: both forms write `subB` of the operand and Rm, borrow-in the C before the instruction. -/
theorem rsubcResult : Obligations.RsubcResult := by
  unfold Obligations.RsubcResult
  exact ⟨fun _ _ _ _ => ⟨rfl, exec_difference rfl⟩, fun _ _ _ _ => ⟨rfl, exec_difference rfl⟩⟩

end Sys2Proof.Proofs

/-! Proofs about `43_logic.md`: what a logical result writes, and the instructions that write one. -/

namespace Sys2Proof.Proofs

open Sys2Proof.Machine Sys2Proof.Laws

/-! ### A logical result (R140) -/

/-- What became of the flags before `finish` still holds after it. -/
theorem flagsBecome_finish {s u : State} {f : Nzcv} (rd : Reg) (v : Word)
    (h : FlagsBecome s u f) : FlagsBecome s (u.finish rd v) f := by
  simpa only [FlagsBecome, State.nzcv, finish_flags] using h

/-- The converse of `logicResult_next`: a logical result writes Rd or pc and the four flags, C and V as `LOGIC_CV` says, and nothing else. -/
theorem logicResult_spec (s : State) (rd : Reg) (r : Word) :
    ∃ f t, logicResult s rd r = .next t ∧ LogicSpec s.cfg.logicCV s.nzcv r f ∧
      WritesReg s.mode rd r s t ∧ FlagsBecome s t f := by
  obtain ⟨f, hflags, hspec⟩ := setLogicFlags_becomes s r
  have hwrites : WritesReg s.mode rd r s ((s.setLogicFlags r).finish rd r) :=
    finish_writesReg rd r (setLogicFlags_g s r) (setLogicFlags_bankS s r) (setLogicFlags_bankI s r)
      (setLogicFlags_pc s r) (setLogicFlags_mcr s r) (setLogicFlags_mem s r) (by simp [EnvKept])
  exact ⟨f, _, rfl, hspec, hwrites, flagsBecome_finish rd r hflags⟩

/-- A form that writes a logical result: what its obligation says beside the encoding. -/
theorem exec_logic {i : Instr} {s : State} {rd : Reg} {r : Word}
    (h : exec i s = logicResult s rd r) :
    ∃ f t, exec i s = .next t ∧ LogicSpec s.cfg.logicCV s.nzcv r f ∧
      WritesReg s.mode rd r s t ∧ FlagsBecome s t f := by
  rw [h]
  exact logicResult_spec s rd r

/-! ### AND, BIC, OR, XOR (R141 to R148): O20 to O23 -/

/-- Settles O20: both forms write the conjunction of Rm and the operand. -/
theorem andResult : Obligations.AndResult := by
  unfold Obligations.AndResult
  exact ⟨fun _ _ _ _ => ⟨rfl, exec_logic rfl⟩, fun _ _ _ _ => ⟨rfl, exec_logic rfl⟩⟩

/-- Settles O21: both forms write the conjunction of Rm and the complement of the operand, taken after the extension or the shift. -/
theorem bicResult : Obligations.BicResult := by
  unfold Obligations.BicResult
  exact ⟨fun _ _ _ _ => ⟨rfl, exec_logic rfl⟩, fun _ _ _ _ => ⟨rfl, exec_logic rfl⟩⟩

/-- Settles O22: both forms write the disjunction of Rm and the operand. -/
theorem orResult : Obligations.OrResult := by
  unfold Obligations.OrResult
  exact ⟨fun _ _ _ _ => ⟨rfl, exec_logic rfl⟩, fun _ _ _ _ => ⟨rfl, exec_logic rfl⟩⟩

/-- Settles O23: both forms write the exclusive disjunction of Rm and the operand. -/
theorem xorResult : Obligations.XorResult := by
  unfold Obligations.XorResult
  exact ⟨fun _ _ _ _ => ⟨rfl, exec_logic rfl⟩, fun _ _ _ _ => ⟨rfl, exec_logic rfl⟩⟩

end Sys2Proof.Proofs

/-! Proofs about `44_compare.md`: CMP and TST, which write the flags and no register. -/

namespace Sys2Proof.Proofs

open Sys2Proof.Machine Sys2Proof.Laws

/-! ### Flags and pc alone (R154) -/

/-- R154: pc is A + 4; no general or link register of either bank, no field of `mcr`, no byte of memory and nothing of the environment changes. Flags are left to a clause of their own, as in `WritesReg`. -/
def WritesNoReg (s t : State) : Prop :=
  t.pc = s.pc + 4 ∧ RegsKept s t ∧ t.mcr = s.mcr ∧ MemKept s t ∧ EnvKept s t

/-- The four flags are set and the reserved bits of `flags` are kept. -/
theorem setNzcv_becomes (s : State) (f : Nzcv) : FlagsBecome s (s.setNzcv f) f :=
  ⟨setNzcv_nzcv s f, setNzcv_reserved s f⟩

theorem setNzcv_advance_writesNoReg (s : State) (f : Nzcv) :
    WritesNoReg s (s.setNzcv f).advance :=
  ⟨rfl, regsKept_of_banks rfl rfl rfl, rfl, fun _ => rfl, rfl, rfl, rfl, rfl⟩

/-- The free values that C and V may become (`LOGIC_CV` = `any`) are counted outside what `WritesNoReg` speaks of. -/
theorem setLogicFlags_advance_writesNoReg (s : State) (r : Word) :
    WritesNoReg s (s.setLogicFlags r).advance := by
  refine ⟨?pc, ?regs, setLogicFlags_mcr s r, ?mem, by simp [EnvKept]⟩
  case pc => rw [advance_pc, setLogicFlags_pc]
  case regs =>
    exact regsKept_of_banks (setLogicFlags_g s r) (setLogicFlags_bankS s r)
      (setLogicFlags_bankI s r)
  case mem => exact fun _ => by rw [advance_mem, setLogicFlags_mem]

section Exec
variable {i : Instr} {s : State}

/-- A form that compares: what its obligation says beside the encoding. The difference itself goes nowhere (R150, R151). -/
theorem exec_compare {a b : Word}
    (h : exec i s = .next (s.setNzcv (subB s.cfg.subCOut a b false).2).advance) :
    ∃ r f t, exec i s = .next t ∧ SubSpec s.cfg.subCOut a b false r f ∧
      FlagsBecome s t f ∧ WritesNoReg s t :=
  ⟨_, _, _, h, subB_spec s.cfg.subCOut a b false, setNzcv_becomes s _,
    setNzcv_advance_writesNoReg s _⟩

/-- A form that tests: what its obligation says beside the encoding. The conjunction itself goes nowhere (R152, R153). -/
theorem exec_test {r : Word} (h : exec i s = .next (s.setLogicFlags r).advance) :
    ∃ f t, exec i s = .next t ∧ LogicSpec s.cfg.logicCV s.nzcv r f ∧
      FlagsBecome s t f ∧ WritesNoReg s t := by
  obtain ⟨f, hflags, hspec⟩ := setLogicFlags_becomes s r
  exact ⟨f, _, h, hspec, hflags, setLogicFlags_advance_writesNoReg s r⟩

end Exec

/-! ### CMP (R150, R151): O24 -/

/-- Settles O24: both forms keep the flags of `subB` of Rm and the operand, borrow-in 0. -/
theorem cmpResult : Obligations.CmpResult := by
  unfold Obligations.CmpResult
  exact ⟨fun _ _ _ => ⟨rfl, exec_compare rfl⟩, fun _ _ _ => ⟨rfl, exec_compare rfl⟩⟩

/-! ### TST (R152, R153): O25 -/

/-- Settles O25: both forms keep the flags of the conjunction of Rm and the operand. -/
theorem tstResult : Obligations.TstResult := by
  unfold Obligations.TstResult
  exact ⟨fun _ _ _ => ⟨rfl, exec_test rfl⟩, fun _ _ _ => ⟨rfl, exec_test rfl⟩⟩

end Sys2Proof.Proofs

/-! Proofs about `45_branch.md`: the condition numbers, the comparison that each condition names, and the two branches. -/

namespace Sys2Proof.Proofs

open Sys2Proof.Machine Sys2Proof.Laws

/-! ### The default condition map (R160, D3): O12 -/

/-- Settles O12, row by row of the table: the flags stay variables, and CS is C read as a borrow. -/
theorem conditionPredicates : Obligations.ConditionPredicates := by
  unfold Obligations.ConditionPredicates
  rintro co f c rfl
  exact ⟨rfl, rfl, rfl, rfl, rfl, rfl, rfl, rfl, rfl, rfl, rfl, rfl, rfl, rfl, rfl, rfl⟩

/-! ### Conditions that are made of others (R160) -/

section Derived
variable (co : SubCOut) (f : Nzcv)

theorem condHolds_ne_iff : condHolds co .ne f = true ↔ ¬condHolds co .eq f = true := by
  simp [condHolds]

theorem condHolds_cc_iff : condHolds co .cc f = true ↔ ¬condHolds co .cs f = true := by
  simp [condHolds]

theorem condHolds_pl_iff : condHolds co .pl f = true ↔ ¬condHolds co .mi f = true := by
  simp [condHolds]

theorem condHolds_vc_iff : condHolds co .vc f = true ↔ ¬condHolds co .vs f = true := by
  simp [condHolds]

theorem condHolds_hi_iff : condHolds co .hi f = true ↔
    ¬condHolds co .cs f = true ∧ ¬condHolds co .eq f = true := by
  simp [condHolds]

theorem condHolds_ls_iff : condHolds co .ls f = true ↔
    condHolds co .cs f = true ∨ condHolds co .eq f = true := by
  simp [condHolds]

theorem condHolds_lt_iff : condHolds co .lt f = true ↔ ¬condHolds co .ge f = true := by
  simp [condHolds]

theorem condHolds_gt_iff : condHolds co .gt f = true ↔
    ¬condHolds co .eq f = true ∧ condHolds co .ge f = true := by
  simp [condHolds]

theorem condHolds_le_iff : condHolds co .le f = true ↔
    condHolds co .eq f = true ∨ ¬condHolds co .ge f = true := by
  simp [condHolds]

theorem condHolds_ge_iff : condHolds co .ge f = true ↔ (f.n = true ↔ f.v = true) := by
  rw [condHolds, beq_iff_eq, Bool.eq_iff_iff]

end Derived

/-! ### Conditions after a comparison (R121, R160): O13 -/

section Comparison
variable (co : SubCOut) (a b : Word)

/-- With no borrow in, the result is the 32-bit difference. -/
theorem subB_result : (subB co a b false).1 = a - b := by
  apply BitVec.eq_of_toInt_eq
  rw [subB_toInt, BitVec.toInt_sub]
  simp

theorem subB_n_iff : (subB co a b false).2.n = true ↔ (a - b).toInt < 0 := by
  rw [← subB_result co, ← getLsbD_31_eq_true_iff]
  rfl

theorem condHolds_eq_subB : condHolds co .eq (subB co a b false).2 = true ↔ a = b := by
  obtain ⟨_, _, hz, _, _⟩ := subB_spec co a b false
  rw [subB_result] at hz
  exact hz.trans sub_eq_zero

/-- CS is the borrow of the unsigned difference under either meaning of C. -/
theorem condHolds_cs_subB :
    condHolds co .cs (subB co a b false).2 = true ↔ a.toNat < b.toNat := by
  obtain ⟨_, _, _, hc, _⟩ := subB_spec co a b false
  cases co with
  | borrow => simpa [condHolds] using hc
  | notBorrow => simpa [condHolds] using not_congr hc

theorem condHolds_mi_subB :
    condHolds co .mi (subB co a b false).2 = true ↔ (a - b).toInt < 0 := subB_n_iff co a b

/-- The exact difference overflows when the wrapped one is not it. -/
theorem condHolds_vs_subB : condHolds co .vs (subB co a b false).2 = true ↔
    (a - b).toInt ≠ a.toInt - b.toInt := by
  have hwrap := subB_toInt co a b false
  obtain ⟨_, _, _, _, hv⟩ := subB_spec co a b false
  rw [subB_result] at hwrap
  simp only [Bool.toNat_false, Int.bmod_def] at hwrap hv
  refine hv.trans ?_
  omega

/-- N differs from V exactly when the exact difference is negative: overflow is when wrapping turns its sign. -/
theorem condHolds_ge_subB :
    condHolds co .ge (subB co a b false).2 = true ↔ b.toInt ≤ a.toInt := by
  have ⟨_, _⟩ : -2 ^ 31 ≤ a.toInt ∧ a.toInt < 2 ^ 31 := ⟨a.le_toInt, a.toInt_lt⟩
  have ⟨_, _⟩ : -2 ^ 31 ≤ b.toInt ∧ b.toInt < 2 ^ 31 := ⟨b.le_toInt, b.toInt_lt⟩
  have hv : (subB co a b false).2.v = true ↔ ¬((a - b).toInt < 0 ↔ a.toInt - b.toInt < 0) := by
    have hwrap := subB_toInt co a b false
    rw [subB_result, Bool.toNat_false, Nat.cast_zero, sub_zero] at hwrap
    rw [← signedOverflow_iff_sign hwrap (by omega) (by omega)]
    simp [subB]
  rw [condHolds_ge_iff, subB_n_iff, hv]
  omega

end Comparison

/-- Settles O13: EQ, CS, GE, MI and VS are read off the difference; every other condition is made of these. -/
theorem conditionsCompareOperands : Obligations.ConditionsCompareOperands := by
  unfold Obligations.ConditionsCompareOperands
  rintro co a b f rfl
  have heq := condHolds_eq_subB co a b
  have hcs := condHolds_cs_subB co a b
  have hge := condHolds_ge_subB co a b
  have hmi := condHolds_mi_subB co a b
  have hvs := condHolds_vs_subB co a b
  have hunsigned := heq.trans BitVec.toNat_inj.symm
  have hsigned := heq.trans BitVec.toInt_inj.symm
  refine ⟨heq, ?ne, hcs, ?cc, ?hi, ?ls, hge, ?lt, ?gt, ?le, hmi, ?pl, hvs, ?vc⟩
  case ne => rw [condHolds_ne_iff, heq]
  case cc => rw [condHolds_cc_iff, hcs, not_lt]
  case hi => rw [condHolds_hi_iff, hcs, hunsigned]; omega
  case ls => rw [condHolds_ls_iff, hcs, hunsigned]; omega
  case lt => rw [condHolds_lt_iff, hge, not_le]
  case gt => rw [condHolds_gt_iff, hge, hsigned]; omega
  case le => rw [condHolds_le_iff, hge, hsigned]; omega
  case pl => rw [condHolds_pl_iff, hmi, not_lt]
  case vc => rw [condHolds_vc_iff, hvs, not_ne_iff]

/-! ### What the branches answer (R161 to R163): with `execB_taken`, every case -/

section Branch
variable {cond : BitVec 4} {k : Cond} {s : State} (imm : Half)

theorem exec_bl (cond : BitVec 4) (imm : Half) (s : State) :
    exec (.bl cond imm) s = execBl cond imm s := rfl

theorem execB_reserved (hk : condOf s.cfg.cond cond = none) :
    execB cond imm s = .fault .reservedCondition := by
  simp only [execB, hk]

theorem execBl_reserved (hk : condOf s.cfg.cond cond = none) :
    execBl cond imm s = .fault .reservedCondition := by
  simp only [execBl, hk]

theorem execB_untaken (hk : condOf s.cfg.cond cond = some k)
    (hfails : condHolds s.cfg.subCOut k s.nzcv = false) :
    execB cond imm s = .next s.advance := by
  simp [execB, hk, hfails]

theorem execBl_untaken (hk : condOf s.cfg.cond cond = some k)
    (hfails : condHolds s.cfg.subCOut k s.nzcv = false) :
    execBl cond imm s = .next s.advance := by
  simp [execBl, hk, hfails]

theorem execBl_taken (hk : condOf s.cfg.cond cond = some k)
    (hholds : condHolds s.cfg.subCOut k s.nzcv = true) :
    execBl cond imm s = .next ((s.writeReg .lr (s.pc + 4)).setPc (s.branchTarget imm)) := by
  simp only [execBl, hk, hholds, if_true]

end Branch

theorem setPc_onlyPc (s : State) (target : Word) : OnlyPc target s (s.setPc target) :=
  ⟨rfl, regsKept_of_banks rfl rfl rfl, rfl, rfl, fun _ => rfl, rfl, rfl, rfl, rfl⟩

theorem advance_onlyPc (s : State) : OnlyPc (s.pc + 4) s s.advance :=
  setPc_onlyPc s (s.pc + 4)

/-! ### B<c> (R162): O35 -/

/-- Settles O35: each path writes pc alone. -/
theorem branchResult : Obligations.BranchResult := by
  unfold Obligations.BranchResult
  refine fun cond imm s => ⟨rfl, fun hk => ?reserved, fun k hk => ?assigned⟩
  case reserved => rw [exec_b, execB_reserved imm hk]
  case assigned =>
    rw [exec_b]
    cases hc : condHolds s.cfg.subCOut k s.nzcv with
    | true => exact ⟨_, execB_taken imm hk hc, setPc_onlyPc s (s.branchTarget imm)⟩
    | false => exact ⟨_, execB_untaken imm hk hc, advance_onlyPc s⟩

/-! ### B<c>L (R163): O36 -/

/-- A jump reads no register and changes none. -/
theorem readIn_setPc (s : State) (target : Word) (m : Mode) {r : Reg} (hr : r ≠ .pc) :
    (s.setPc target).readIn m r = s.readIn m r :=
  readIn_congr (s := s) (t := s.setPc target) rfl rfl rfl hr

/-- Settles O36: the branch taken writes lr through the current view and then pc. -/
theorem branchLinkResult : Obligations.BranchLinkResult := by
  unfold Obligations.BranchLinkResult
  refine fun cond imm s => ⟨rfl, fun hk => ?reserved, fun k hk hfails => ?untaken,
    fun k hk hholds => ?taken⟩
  case reserved => rw [exec_bl, execBl_reserved imm hk]
  case untaken => exact ⟨_, execBl_untaken imm hk hfails, advance_onlyPc s⟩
  case taken =>
    refine ⟨_, execBl_taken imm hk hholds, rfl, ?link, fun m r hr hother => ?kept, by simp,
      by simp, fun a => by simp, by simp [EnvKept]⟩
    case link =>
      rw [readIn_setPc _ _ _ (by decide)]
      exact readIn_writeIn_same s s.mode (s.pc + 4) (by decide)
    case kept =>
      rw [readIn_setPc _ _ _ hr]
      exact readIn_writeIn_other s (s.pc + 4) hr hother

end Sys2Proof.Proofs

/-! Proofs about `46_system.md`: what trap entry writes (R186), what INT answers in each of its cases, and INT. -/

namespace Sys2Proof.Proofs

open Sys2Proof.Machine Sys2Proof.Laws

/-! ### What trap entry writes (R186) -/

section Trap
variable (s : State) (v : VecNum) (ret : Word)

/-- A bit of mcr that trap entry writes is a flag where F lies, a bit of the vector number where V lies, and 0 elsewhere. -/
theorem trapEntry_mcr_bit {i : Nat} (h : trapMask.getLsbD i = true) (hi : i < 32) :
    (s.trapEntry v ret).mcr.getLsbD i =
      (s.flags.getLsbD i && nzcvMask.getLsbD i || !decide (i < 3) && v.getLsbD (i - 3)) := by
  rw [trapEntry_mcr, getLsbD_merge_of_mask s.mcr _ h, BitVec.getLsbD_or, BitVec.getLsbD_and,
    BitVec.getLsbD_shiftLeft, BitVec.getLsbD_setWidth]
  simp [hi, show i - 3 < 32 by omega]

theorem trapEntry_savedFlags : (s.trapEntry v ret).savedFlags = s.nzcv := by
  simp (disch := decide) only [State.savedFlags, nzcvOf, trapEntry_mcr_bit]
  simp [State.nzcv, nzcvOf, nzcvMask]

theorem trapEntry_savedVector : (s.trapEntry v ret).savedVector = v := by
  have hbit : ∀ i < 5, trapMask.getLsbD (3 + i) = true ∧ nzcvMask.getLsbD (3 + i) = false := by
    decide
  refine BitVec.eq_of_getLsbD_eq fun i hi => ?_
  obtain ⟨hwritten, hnoFlag⟩ := hbit i hi
  rw [State.savedVector, BitVec.getLsbD_extractLsb',
    trapEntry_mcr_bit s v ret hwritten (by omega), hnoFlag]
  simp [hi]

theorem trapEntry_mode : (s.trapEntry v ret).mode = .irq := by
  rw [State.mode, trapEntry_mcr_bit s v ret (by decide) (by decide)]
  simp [nzcvMask]

theorem trapEntry_intEnabled : (s.trapEntry v ret).intEnabled = false := by
  rw [State.intEnabled, trapEntry_mcr_bit s v ret (by decide) (by decide)]
  simp [nzcvMask]

/-- Of the registers, trap entry writes lr_i alone: it is the write of that register. -/
theorem trapEntry_regsKept : RegsKeptBut .irq .lr s (s.trapEntry v ret) := by
  intro m r hr hother
  have hwrite : (s.trapEntry v ret).readIn m r = (s.writeIn .irq .lr ret).readIn m r :=
    readIn_congr (s := s.writeIn .irq .lr ret) (t := s.trapEntry v ret) rfl rfl rfl hr
  exact hwrite.trans (readIn_writeIn_other s ret hr hother)

theorem trapEntry_trapSpec : TrapSpec v ret s (s.trapEntry v ret) :=
  ⟨rfl, trapEntry_savedFlags s v ret, trapEntry_savedVector s v ret, trapEntry_mode s v ret,
    trapEntry_intEnabled s v ret, rfl, merge_and_of_disjoint s.mcr _ (by decide), rfl,
    trapEntry_regsKept s v ret, fun _ => rfl⟩

theorem trapEntry_envKept : EnvKept s (s.trapEntry v ret) := ⟨rfl, rfl, rfl, rfl⟩

end Trap

/-! ### What INT answers (R170) -/

theorem exec_int (imm : Half) (s : State) : exec (.int imm) s = execInt imm s := rfl

/-- The immediate's bits above the vector number, all 0 exactly when it is at most 31. -/
theorem intHighBits_eq_zero_iff (imm : Half) : imm.extractLsb' 5 11 = 0 ↔ imm.toNat < 32 := by
  rw [← BitVec.toNat_inj, BitVec.extractLsb'_toNat, Nat.shiftRight_eq_div_pow]
  have := imm.isLt
  simp
  omega

theorem execInt_reserved {imm : Half} (s : State) (h : 32 ≤ imm.toNat) :
    execInt imm s = .fault .reservedIntVector := by
  rw [execInt, if_pos (mt (intHighBits_eq_zero_iff imm).mp (by omega))]

section Vector
variable {imm : Half} {v : VecNum} {s : State} (hv : v.toNat = imm.toNat)
include hv

theorem intHighBits_of_vector : imm.extractLsb' 5 11 = 0 := by
  have := v.isLt
  exact (intHighBits_eq_zero_iff imm).mpr (by omega)

theorem intVector_eq : imm.extractLsb' 0 5 = v := by
  apply BitVec.eq_of_toNat_eq
  have := v.isLt
  simp
  omega

theorem execInt_enabled (h : s.intEnabled = true) :
    execInt imm s = .next (s.trapEntry v (s.pc + 4)) := by
  simp [execInt, intHighBits_of_vector hv, intVector_eq hv, h]

theorem execInt_masked_refuse (h : s.intEnabled = false) (hset : s.cfg.intWhenMasked = .refuse) :
    execInt imm s = .refused .maskedInt := by
  simp [execInt, intHighBits_of_vector hv, h, hset]

theorem execInt_masked_trap (h : s.intEnabled = false) (hset : s.cfg.intWhenMasked = .trap) :
    execInt imm s = .next (s.trapEntry v (s.pc + 4)) := by
  simp [execInt, intHighBits_of_vector hv, intVector_eq hv, h, hset]

theorem execInt_masked_nop (h : s.intEnabled = false) (hset : s.cfg.intWhenMasked = .nop) :
    execInt imm s = .next s.advance := by
  simp [execInt, intHighBits_of_vector hv, h, hset]

/-- Where the setting leaves it open, a free value decides between the two effects (log 16). -/
theorem execInt_masked_trapOrNop (h : s.intEnabled = false)
    (hset : s.cfg.intWhenMasked = .trapOrNop) :
    execInt imm s =
      .next (if Config.maskedIntTraps then s.trapEntry v (s.pc + 4) else s.advance) := by
  simp [execInt, intHighBits_of_vector hv, intVector_eq hv, h, hset]

end Vector

/-! ### INT (R170): O37 -/

/-- Settles O37: each case answers a fault, a refusal, trap entry or the advance of pc. -/
theorem intResult : Obligations.IntResult := by
  unfold Obligations.IntResult
  intro imm s
  rw [exec_int]
  refine ⟨rfl, execInt_reserved s, fun v hv =>
    ⟨?enabled, execInt_masked_refuse hv, ?trap, ?nop, ?trapOrNop⟩⟩
  case enabled =>
    exact fun h => ⟨_, execInt_enabled hv h, trapEntry_trapSpec s v _, trapEntry_envKept s v _⟩
  case trap =>
    exact fun h hset =>
      ⟨_, execInt_masked_trap hv h hset, trapEntry_trapSpec s v _, trapEntry_envKept s v _⟩
  case nop => exact fun h hset => ⟨_, execInt_masked_nop hv h hset, advance_onlyPc s⟩
  case trapOrNop =>
    refine fun h hset => ⟨_, execInt_masked_trapOrNop hv h hset, ?_⟩
    cases Config.maskedIntTraps with
    | true => exact .inl ⟨trapEntry_trapSpec s v _, trapEntry_envKept s v _⟩
    | false => exact .inr (advance_onlyPc s)

end Sys2Proof.Proofs

/-! Proofs about `60_exceptions.md`: the two modes and the exchange of their banks, the ways from one mode to the other, trap entry, the software return, and what a step does at its boundary. -/

namespace Sys2Proof.Proofs

open Sys2Proof.Machine Sys2Proof.Laws

/-! ### The exchange of the two modes, operation by operation (R181): O58 -/

/-- The mode that is not `m`. -/
def otherMode : Mode → Mode
  | .sup => .irq
  | .irq => .sup

section Swap
variable (s : State)

@[simp] theorem swapModes_pc : (swapModes s).pc = s.pc := rfl
@[simp] theorem swapModes_cfg : (swapModes s).cfg = s.cfg := rfl
@[simp] theorem swapModes_mem : (swapModes s).mem = s.mem := rfl
@[simp] theorem swapModes_nzcv : (swapModes s).nzcv = s.nzcv := rfl
@[simp] theorem swapModes_deviceAnswer : (swapModes s).deviceAnswer = s.deviceAnswer := rfl

@[simp] theorem swapModes_mode : (swapModes s).mode = otherMode s.mode := by
  have hbit : (s.mcr ^^^ 2).getLsbD 1 = !s.mcr.getLsbD 1 := by simp
  simp only [State.mode, swapModes, hbit]
  cases s.mcr.getLsbD 1 <;> rfl

/-! Registers: the view of one mode before is the view of the other after. -/

theorem swapModes_readIn (m : Mode) (r : Reg) :
    (swapModes s).readIn (otherMode m) r = s.readIn m r := by
  cases m <;> cases r <;> rfl

theorem swapModes_writeIn (m : Mode) (r : Reg) (v : Word) :
    (swapModes s).writeIn (otherMode m) r v = swapModes (s.writeIn m r v) := by
  cases m <;> cases r <;> rfl

@[simp] theorem swapModes_readReg (r : Reg) : (swapModes s).readReg r = s.readReg r := by
  rw [State.readReg, swapModes_mode, swapModes_readIn, State.readReg]

@[simp] theorem swapModes_writeReg (r : Reg) (v : Word) :
    (swapModes s).writeReg r v = swapModes (s.writeReg r v) := by
  rw [State.writeReg, swapModes_mode, swapModes_writeIn, State.writeReg]

@[simp] theorem swapModes_advance : (swapModes s).advance = swapModes s.advance := rfl

@[simp] theorem swapModes_setPc (target : Word) :
    (swapModes s).setPc target = swapModes (s.setPc target) := rfl

@[simp] theorem swapModes_finish (rd : Reg) (v : Word) :
    (swapModes s).finish rd v = swapModes (s.finish rd v) := by
  simp only [State.finish, swapModes_advance, swapModes_writeReg]

/-! Operands and addresses are read through the view. -/

@[simp] theorem swapModes_shifted (op2 : Shifted) : (swapModes s).shifted op2 = s.shifted op2 := by
  simp only [State.shifted, swapModes_readReg]

@[simp] theorem swapModes_eaDisplaced (rm : Reg) (imm : Half) :
    (swapModes s).eaDisplaced rm imm = s.eaDisplaced rm imm := by
  simp only [State.eaDisplaced, swapModes_readReg]

@[simp] theorem swapModes_eaIndexed (rm : Reg) (op2 : Shifted) :
    (swapModes s).eaIndexed rm op2 = s.eaIndexed rm op2 := by
  simp only [State.eaIndexed, swapModes_readReg, swapModes_shifted]

@[simp] theorem swapModes_branchTarget (imm : Half) :
    (swapModes s).branchTarget imm = s.branchTarget imm := rfl

/-! Flags, memory and devices have one copy. -/

@[simp] theorem swapModes_setNzcv (f : Nzcv) :
    (swapModes s).setNzcv f = swapModes (s.setNzcv f) := rfl

@[simp] theorem swapModes_setLogicFlags (r : Word) :
    (swapModes s).setLogicFlags r = swapModes (s.setLogicFlags r) := by
  simp only [State.setLogicFlags, swapModes_cfg]
  cases s.cfg.logicCV <;> rfl

@[simp] theorem swapModes_deviceRead (a : Word) :
    (swapModes s).deviceRead a = swapModes (s.deviceRead a) := by
  obtain ⟨g, bankS, bankI, pc, flags, mcr, mem, cfg, irqIn, devIn, devLog, draws⟩ := s
  cases devIn <;> rfl

theorem swapModes_loadData (a : Word) :
    (swapModes s).loadData a = (s.loadData a).map fun p => (p.1, swapModes p.2) := by
  simp only [State.loadData, State.memRead, swapModes_cfg, swapModes_mem, swapModes_deviceAnswer,
    swapModes_deviceRead]
  cases aligned a <;> cases kindAt s.cfg.memMap a <;> rfl

theorem swapModes_storeData (a v : Word) :
    (swapModes s).storeData a v = (s.storeData a v).map swapModes := by
  simp only [State.storeData, State.memWrite, swapModes_cfg]
  cases aligned a <;> cases kindAt s.cfg.memMap a <;> rfl

/-! The ends of instructions. -/

theorem swapModes_arithResult (rd : Reg) (x : Word × Nzcv) :
    arithResult (swapModes s) rd x = mapNext swapModes (arithResult s rd x) := by
  simp [arithResult, mapNext]

theorem swapModes_logicResult (rd : Reg) (r : Word) :
    logicResult (swapModes s) rd r = mapNext swapModes (logicResult s rd r) := by
  simp [logicResult, mapNext]

theorem swapModes_loadInto (rd : Reg) (ea : Word) :
    loadInto (swapModes s) rd ea = mapNext swapModes (loadInto s rd ea) := by
  have hswap := swapModes_loadData s ea
  cases h : s.loadData ea with
  | ok p =>
    rw [h] at hswap
    rw [loadInto_of_ok hswap, loadInto_of_ok h, swapModes_finish, mapNext]
  | error f =>
    rw [h] at hswap
    rw [loadInto_of_error hswap, loadInto_of_error h, mapNext]

theorem swapModes_storeFrom (rd : Reg) (ea : Word) :
    storeFrom (swapModes s) rd ea = mapNext swapModes (storeFrom s rd ea) := by
  have hswap : (swapModes s).storeData ea ((swapModes s).readReg rd) =
      (s.storeData ea (s.readReg rd)).map swapModes := by
    rw [swapModes_readReg, swapModes_storeData]
  cases h : s.storeData ea (s.readReg rd) with
  | ok t =>
    rw [h] at hswap
    rw [storeFrom_of_ok hswap, storeFrom_of_ok h, swapModes_advance, mapNext]
  | error f =>
    rw [h] at hswap
    rw [storeFrom_of_error hswap, storeFrom_of_error h, mapNext]

theorem swapModes_execB (cond : BitVec 4) (imm : Half) :
    execB cond imm (swapModes s) = mapNext swapModes (execB cond imm s) := by
  cases hk : condOf s.cfg.cond cond with
  | none => rw [execB_reserved imm hk, execB_reserved (s := swapModes s) imm hk, mapNext]
  | some k =>
    cases hc : condHolds s.cfg.subCOut k s.nzcv with
    | true =>
      rw [execB_taken imm hk hc, execB_taken (s := swapModes s) imm hk hc]
      simp [mapNext]
    | false =>
      rw [execB_untaken imm hk hc, execB_untaken (s := swapModes s) imm hk hc]
      simp [mapNext]

theorem swapModes_execBl (cond : BitVec 4) (imm : Half) :
    execBl cond imm (swapModes s) = mapNext swapModes (execBl cond imm s) := by
  cases hk : condOf s.cfg.cond cond with
  | none => rw [execBl_reserved imm hk, execBl_reserved (s := swapModes s) imm hk, mapNext]
  | some k =>
    cases hc : condHolds s.cfg.subCOut k s.nzcv with
    | true =>
      rw [execBl_taken imm hk hc, execBl_taken (s := swapModes s) imm hk hc]
      simp [mapNext]
    | false =>
      rw [execBl_untaken imm hk hc, execBl_untaken (s := swapModes s) imm hk hc]
      simp [mapNext]

end Swap

/-- Settles O58: every operand is read alike, and each end of an instruction commutes with the exchange. -/
theorem modesExecuteAlike : Obligations.ModesExecuteAlike := by
  unfold Obligations.ModesExecuteAlike
  intro i s hview
  cases i with
  | movRb | movWb | int => cases hview
  | ldrA | ldrI | ldrR => simp [exec, execLdrA, execLdrI, execLdrR, swapModes_loadInto]
  | strA | strI | strR => simp [exec, execStrA, execStrI, execStrR, swapModes_storeFrom]
  | movI | movR | movtI => simp [exec, execMovI, execMovR, execMovtI, mapNext]
  | addI | addR | addcI | addcR =>
    simp [exec, execAddI, execAddR, execAddcI, execAddcR, swapModes_arithResult]
  | subI | subR | subcI | subcR =>
    simp [exec, execSubI, execSubR, execSubcI, execSubcR, swapModes_arithResult]
  | rsubI | rsubR | rsubcI | rsubcR =>
    simp [exec, execRsubI, execRsubR, execRsubcI, execRsubcR, swapModes_arithResult]
  | andI | andR | bicI | bicR =>
    simp [exec, execAndI, execAndR, execBicI, execBicR, swapModes_logicResult]
  | orI | orR | xorI | xorR =>
    simp [exec, execOrI, execOrR, execXorI, execXorR, swapModes_logicResult]
  | cmpI | cmpR => simp [exec, execCmpI, execCmpR, mapNext]
  | tstI | tstR => simp [exec, execTstI, execTstR, mapNext]
  | b cond imm => exact swapModes_execB s cond imm
  | bl cond imm => exact swapModes_execBl s cond imm

/-! ### The ways from one mode to the other (R180): O56 -/

/-- What executing an instruction can do to the mode: INT may enter IRQ mode, and a MOV to mcr sets the mode by bit 1 of Rm. -/
theorem execFrame_mode {i : Instr} {s t : State} (h : ExecFrame i s t) :
    t.mode = s.mode ∨ (∃ imm, i = .int imm ∧ t.mode = .irq) ∨
    ∃ rm, i = .movWb .bank3 .r1 rm ∧ t.mode = if (s.readReg rm).getLsbD 1 then .sup else .irq := by
  rcases h.mcr with hkept | ⟨imm, rfl, v, ret, htrap⟩ | ⟨rm, rfl, hwritten⟩
  · exact .inl (mode_congr hkept)
  · exact .inr (.inl ⟨imm, rfl, (mode_congr htrap).trans (trapEntry_mode s v ret)⟩)
  · exact .inr (.inr ⟨rm, rfl,
      (mode_congr (s := s.writeMcr (s.readReg rm)) hwritten).trans (writeMcr_mode s _)⟩)

/-- What a step can do to the mode. -/
theorem step_mode {s t : State} (h : step s = .next t) :
    t.mode = s.mode ∨
    (t.mode = .irq ∧ (s.acceptedIrq ≠ none ∨ ∃ imm u, Runs s (.int imm) u)) ∨
    ∃ rm u, Runs s (.movWb .bank3 .r1 rm) u ∧
      t.mode = if (u.readReg rm).getLsbD 1 then .sup else .irq := by
  rcases step_cases h with ⟨_, v, haccepted, rfl⟩ | ⟨i, u, hruns, hexec⟩
  · exact .inr (.inl ⟨trapEntry_mode s.dropIrq v s.pc, .inl (by simp [haccepted])⟩)
  · rcases execFrame_mode (exec_frame hexec) with hkept | ⟨imm, rfl, hirq⟩ | ⟨rm, rfl, hset⟩
    · exact .inl (hkept.trans (mode_congr (runs_mcr hruns)))
    · exact .inr (.inl ⟨hirq, .inr ⟨imm, u, hruns⟩⟩)
    · exact .inr (.inr ⟨rm, u, hruns, hset⟩)

theorem mode_eq_sup_iff (s : State) : s.mode = .sup ↔ s.mcr.getLsbD 1 = true := by
  cases h : s.mcr.getLsbD 1 <;> simp only [State.mode, h] <;> decide

/-- Settles O56: of the cases of `step_mode`, those whose mode after the step is the other one. -/
theorem irqModeLeftOnlyByMovToMcr : Obligations.IrqModeLeftOnlyByMovToMcr := by
  unfold Obligations.IrqModeLeftOnlyByMovToMcr
  refine ⟨fun s => ⟨mode_eq_sup_iff s, fun h => by rw [h]; rfl, fun h => by rw [h]; rfl,
    fun r => readIn_of_shared s .irq .sup⟩, fun s t h hbefore hafter => ?left,
    fun s t h hbefore hafter => ?entered⟩
  case left =>
    rcases step_mode h with hkept | ⟨hirq, _⟩ | ⟨rm, u, hruns, hset⟩
    · simp [hbefore, hafter] at hkept
    · simp [hafter] at hirq
    · exact ⟨rm, u, hruns, by simpa [hafter] using hset⟩
  case entered =>
    rcases step_mode h with hkept | ⟨_, hirq | hint⟩ | ⟨rm, u, hruns, hset⟩
    · simp [hbefore, hafter] at hkept
    · exact .inl hirq
    · exact .inr (.inl hint)
    · exact .inr (.inr ⟨rm, u, hruns, by simpa [hafter] using hset⟩)

/-! ### Trap entry (R186, R187): O38, O39 -/

/-- Settles O38, which is what trap entry writes and keeps. -/
theorem trapEntryEffect : Obligations.TrapEntryEffect := by
  unfold Obligations.TrapEntryEffect
  exact fun v ret s => ⟨trapEntry_trapSpec s v ret, trapEntry_envKept s v ret⟩

/-- Settles O39: `4 * v` is below 128, so only the sum with the base wraps. -/
theorem vectorAddresses : Obligations.VectorAddresses := by
  unfold Obligations.VectorAddresses
  refine ⟨fun base v => ?slots, fun addr v => rfl⟩
  case slots =>
    have hoffset : (4 * v.setWidth 32 : Word).toNat = 4 * v.toNat := by bv_omega
    rw [vectorAddr, BitVec.toNat_add, hoffset]

/-! ### The software return (R190): O40 -/

theorem execAll_cons_of_next {i : Instr} {rest : List Instr} {s t : State}
    (h : exec i s = .next t) : execAll (i :: rest) s = execAll rest t := by
  simp only [execAll, h]

/-- What the return sequence keeps at each instruction: the registers of the supervisor's view (pc apart), the link register of IRQ mode, memory and the environment. -/
def ReturnKeeps (s t : State) : Prop :=
  (∀ r, r ≠ .pc → t.readIn .sup r = s.readIn .sup r) ∧ t.readIn .irq .lr = s.readIn .irq .lr ∧
  MemKept s t ∧ EnvKept s t

theorem envKept_trans {s t u : State} (h : EnvKept s t) (h' : EnvKept t u) : EnvKept s u := by
  obtain ⟨hcfg, hirq, hdevIn, hdevLog⟩ := h
  obtain ⟨hcfg', hirq', hdevIn', hdevLog'⟩ := h'
  exact ⟨hcfg'.trans hcfg, hirq'.trans hirq, hdevIn'.trans hdevIn, hdevLog'.trans hdevLog⟩

theorem returnKeeps_trans {s t u : State} (h : ReturnKeeps s t) (h' : ReturnKeeps t u) :
    ReturnKeeps s u := by
  obtain ⟨hview, hlink, hmem, henv⟩ := h
  obtain ⟨hview', hlink', hmem', henv'⟩ := h'
  exact ⟨fun r hr => (hview' r hr).trans (hview r hr), hlink'.trans hlink,
    fun a => (hmem' a).trans (hmem a), envKept_trans henv henv'⟩

/-- Kept in particular by what keeps every register. -/
theorem returnKeeps_of_regsKept {s t : State} (h : RegsKept s t) (hmem : MemKept s t)
    (henv : EnvKept s t) : ReturnKeeps s t :=
  ⟨fun r hr => h .sup r hr, h .irq .lr (by decide), hmem, henv⟩

/-- Kept by a write to a banked register of IRQ mode other than lr. -/
theorem returnKeeps_of_writesReg_irq {s t : State} {rd : Reg} {v : Word}
    (h : WritesReg .irq rd v s t) (hbanked : isBanked rd = true) (hlr : rd ≠ .lr) :
    ReturnKeeps s t := by
  obtain ⟨_, _, hregs, _, hmem, henv⟩ := h
  exact ⟨fun r hr => hregs .sup r hr fun hsame => absurd (hsame.2 hbanked) (by decide),
    hregs .irq .lr (by decide) fun hsame => hlr hsame.1, hmem, henv⟩

/-- Kept by a write to pc. -/
theorem returnKeeps_of_writesReg_pc {s t : State} {m : Mode} {v : Word}
    (h : WritesReg m .pc v s t) : ReturnKeeps s t := by
  obtain ⟨_, _, hregs, _, hmem, henv⟩ := h
  exact returnKeeps_of_regsKept (fun m' r hr => hregs m' r hr fun hsame => hr hsame.1.symm) hmem henv

/-- r0 to r7 are what supervisor mode reads of them (R13). -/
theorem g_eq_supView (s : State) : s.g =
    { r0 := s.readIn .sup .r0, r1 := s.readIn .sup .r1, r2 := s.readIn .sup .r2,
      r3 := s.readIn .sup .r3, r4 := s.readIn .sup .r4, r5 := s.readIn .sup .r5,
      r6 := s.readIn .sup .r6, r7 := s.readIn .sup .r7 } := rfl

/-- The supervisor bank is what supervisor mode reads of it (R13). -/
theorem bankS_eq_supView (s : State) : s.bankS =
    { r8 := s.readIn .sup .r8, r9 := s.readIn .sup .r9, r10 := s.readIn .sup .r10,
      r11 := s.readIn .sup .r11, r12 := s.readIn .sup .r12, r13 := s.readIn .sup .r13,
      lr := s.readIn .sup .lr } := rfl

theorem returnKeeps_banks {s t : State} (h : ReturnKeeps s t) :
    t.g = s.g ∧ t.bankS = s.bankS ∧ t.bankI.lr = s.bankI.lr := by
  obtain ⟨hview, hlink, _⟩ := h
  refine ⟨?shared, ?supervisor, hlink⟩
  case shared =>
    rw [g_eq_supView t, g_eq_supView s]
    simp (disch := decide) only [hview]
  case supervisor =>
    rw [bankS_eq_supView t, bankS_eq_supView s]
    simp (disch := decide) only [hview]

/-- Words that agree under a mask agree under a smaller one. -/
theorem and_eq_of_subMask {v w mask sub : Word} (h : v &&& mask = w &&& mask)
    (hsub : mask &&& sub = sub) : v &&& sub = w &&& sub := by
  rw [← hsub, ← BitVec.and_assoc, h, BitVec.and_assoc]

/-- Setting S and I changes no bit that the return gives back (D30). -/
theorem or_three_and_kept (v : Word) : (v ||| 3) &&& 0xFFFFCFF8 = v &&& 0xFFFFCFF8 := by
  rw [BitVec.and_comm, BitVec.and_or_distrib_left, BitVec.and_comm _ v]
  simp

/-- A value read from mcr has its F field where flags has N, Z, C, V. -/
theorem nzcvOf_of_mcrNamed {v w : Word} (h : v &&& mcrNamedMask = w &&& mcrNamedMask) :
    nzcvOf v = nzcvOf w := by
  have hbit : ∀ i, mcrNamedMask.getLsbD i = true → v.getLsbD i = w.getLsbD i := by
    intro i hi
    have := congrArg (BitVec.getLsbD · i) h
    simpa only [BitVec.getLsbD_and, hi, Bool.and_true] using this
  simp (disch := decide) only [nzcvOf, hbit]

/-- The first half of the sequence: r8 and r9 of IRQ mode get mcr, and mcr with S and I set. -/
theorem trapReturn_prepare {s : State} (hmode : s.mode = .irq) (rest : List Instr) :
    ∃ t v, execAll (.movRb .r8 .bank3 .r1 :: .orI .r9 .r8 3 :: rest) s = execAll rest t ∧
      v &&& mcrNamedMask = s.mcr &&& mcrNamedMask ∧ t.readIn .irq .r8 = v ∧
      t.readIn .irq .r9 = v ||| 3 ∧ t.mcr = s.mcr ∧ ReturnKeeps s t := by
  obtain ⟨t, v, hread, _, hv, hwrite⟩ := (movFromStatusRegisters .r8 s).2
  rw [hmode] at hwrite
  have hkeep := returnKeeps_of_writesReg_irq hwrite rfl (by decide)
  obtain ⟨_, hr8, _, hmcr, _⟩ := hwrite
  have htmode : t.mode = .irq := (mode_congr hmcr).trans hmode
  have ht8 : t.readReg .r8 = v := by rw [State.readReg, htmode, hr8 (by decide)]
  obtain ⟨_, _, u, hor, _, hwrite', _⟩ := orResult.1 .r9 .r8 3 t
  rw [htmode, ht8] at hwrite'
  have hkeep' := returnKeeps_of_writesReg_irq hwrite' rfl (by decide)
  obtain ⟨_, hr9, hother, hmcr', _⟩ := hwrite'
  refine ⟨u, v, ?_, hv, ?_, hr9 (by decide), hmcr'.trans hmcr, returnKeeps_trans hkeep hkeep'⟩
  · rw [execAll_cons_of_next hread, execAll_cons_of_next hor]
  · rw [hother .irq .r8 (by decide) fun hsame => absurd hsame.1 (by decide), hr8 (by decide)]

/-- The second half: flags get F, mcr gets S and I set, and pc the link register. -/
theorem trapReturn_leave {s : State} {v : Word} (hmode : s.mode = .irq)
    (h8 : s.readIn .irq .r8 = v) (h9 : s.readIn .irq .r9 = v ||| 3) :
    ∃ t, execAll [.movWb .bank3 .r0 .r8, .movWb .bank3 .r1 .r9, .movRb .pc .interrupt .lr] s =
        .next t ∧
      t.pc = s.readIn .irq .lr ∧ t.mode = .sup ∧ t.intEnabled = true ∧ t.nzcv = nzcvOf v ∧
      t.mcr &&& mcrNamedMask = (v ||| 3) &&& mcrNamedMask ∧ ReturnKeeps s t := by
  obtain ⟨⟨t, hflags, ⟨hnzcv, _⟩, _, hregs, hmcr, hmem, henv⟩, _⟩ := movToStatusRegisters .r8 s
  have htmode : t.mode = .irq := (mode_congr hmcr).trans hmode
  have ht9 : t.readReg .r9 = v ||| 3 := by
    rw [State.readReg, htmode, hregs .irq .r9 (by decide), h9]
  obtain ⟨_, u, hset, hnamed, _, hint, hsup, _, hregs', huFlags, hmem', henv'⟩ :=
    movToStatusRegisters .r9 t
  rw [ht9] at hnamed hint hsup
  obtain ⟨_, _, _, ⟨w, hjump, hwFlags, hwrite⟩, _⟩ := movFromModeBank .pc .lr u
  have hkeep := returnKeeps_trans (returnKeeps_of_regsKept hregs hmem henv)
    (returnKeeps_of_regsKept hregs' hmem' henv')
  have hkeep' := returnKeeps_of_writesReg_pc hwrite
  obtain ⟨hpc, _, _, hwMcr, _⟩ := hwrite
  have ⟨_, hlink, _⟩ := hkeep
  refine ⟨w, ?run, hpc.trans hlink, ?mode, ?int, ?flags, by rw [hwMcr]; exact hnamed,
    returnKeeps_trans hkeep hkeep'⟩
  case run =>
    rw [execAll_cons_of_next hflags, execAll_cons_of_next hset, execAll_cons_of_next hjump, execAll]
  case mode => rw [mode_congr hwMcr, hsup]; simp
  case int => rw [State.intEnabled, hwMcr, ← State.intEnabled, hint]; simp
  case flags => rw [State.nzcv, hwFlags, huFlags, ← State.nzcv, hnzcv, State.readReg, hmode, h8]

/-- Settles O40: the two halves one after the other, the second with the value of mcr that the first put in r8. -/
theorem trapReturnSequence : Obligations.TrapReturnSequence := by
  unfold Obligations.TrapReturnSequence
  intro s hmode
  obtain ⟨t, v, hprepare, hv, h8, h9, hmcr, hkeep⟩ := trapReturn_prepare hmode
    [.movWb .bank3 .r0 .r8, .movWb .bank3 .r1 .r9, .movRb .pc .interrupt .lr]
  obtain ⟨u, hleave, hpc, hsup, hint, hnzcv, hnamed, hkeep'⟩ :=
    trapReturn_leave ((mode_congr hmcr).trans hmode) h8 h9
  have hkept : u.mcr &&& 0xFFFFCFF8 = s.mcr &&& 0xFFFFCFF8 :=
    calc u.mcr &&& 0xFFFFCFF8
      _ = (v ||| 3) &&& 0xFFFFCFF8 := and_eq_of_subMask hnamed (by decide)
      _ = v &&& 0xFFFFCFF8 := or_three_and_kept v
      _ = s.mcr &&& 0xFFFFCFF8 := and_eq_of_subMask hv (by decide)
  have hall := returnKeeps_trans hkeep hkeep'
  obtain ⟨hg, hbankS, hlink⟩ := returnKeeps_banks hall
  obtain ⟨_, hlr, _⟩ := hkeep
  obtain ⟨_, _, hmem, henv⟩ := hall
  exact ⟨u, hprepare.trans hleave, hpc.trans hlr, hsup, hint, hnzcv.trans (nzcvOf_of_mcrNamed hv),
    hkept, hg, hbankS, hlink, hmem, henv⟩

/-! ### A step at its boundary (R182, R183, R189, R194, R195, R200): O44, O46, O47, O48 -/

/-- The instruction a step runs when pc is in a device: the fetch reads its answer (logs 11 and 22). -/
theorem runs_of_device {s : State} {i : Instr} (hdebug : s.debugOn = false)
    (hirq : s.acceptedIrq = none) (hpc : s.pc.toNat % 4 = 0)
    (hdevice : kindAt s.cfg.memMap s.pc = .device)
    (hdec : decode s.cfg.opc s.deviceAnswer = .ok i) :
    Runs s i (s.dropIrq.deviceRead s.pc) :=
  ⟨hdebug, hirq, _, fetch_of_device (s := s.dropIrq) hpc hdevice, by simpa using hdec⟩

/-- No request is accepted while I is 0, nor when there is none (R183). -/
theorem acceptedIrq_eq_none_iff (s : State) :
    s.acceptedIrq = none ↔ s.intEnabled = false ∨ s.irqAnswer = none := by
  cases h : s.intEnabled <;> simp [State.acceptedIrq, h]

/-- Settles O44: the step runs the instruction at pc, and so answers what it means. -/
theorem stepRunsDecodedInstr : Obligations.StepRunsDecodedInstr := by
  unfold Obligations.StepRunsDecodedInstr
  intro s i hdebug hrequest hpc
  have hirq := (acceptedIrq_eq_none_iff s).mpr hrequest
  exact ⟨fun hram hdec => step_of_runs (runs_of_ram hdebug hirq hpc hram hdec),
    fun hdevice hdec => step_of_runs (runs_of_device hdebug hirq hpc hdevice hdec)⟩

theorem step_of_debugOn {s : State} (h : s.debugOn = true) : step s = .refused .debugMode := by
  rw [step, cycle, if_pos h]

/-- Settles O46: MCR.DBG is bit 14 of mcr. -/
theorem debugModeRefused : Obligations.DebugModeRefused := by
  unfold Obligations.DebugModeRefused
  exact fun s hdebug => step_of_debugOn hdebug

/-- The converse of the first case of `step_cases`. -/
theorem step_of_accepted {s : State} {v : VecNum} (hdebug : s.debugOn = false)
    (h : s.acceptedIrq = some v) : step s = .next (s.dropIrq.trapEntry v s.pc) := by
  simp [step, cycle, hdebug, h]

/-- Settles O47: the trap writes what it would have written before the answer was used up. -/
theorem acceptedInterruptTraps : Obligations.AcceptedInterruptTraps := by
  unfold Obligations.AcceptedInterruptTraps
  intro s v hdebug henabled hrequest
  have haccepted : s.acceptedIrq = some v := by rw [State.acceptedIrq, if_pos henabled, hrequest]
  exact ⟨_, step_of_accepted hdebug haccepted, trapEntry_trapSpec s.dropIrq v s.pc, rfl, rfl, rfl,
    rfl⟩

/-- With I clear the step reads no answer: it uses one up. -/
theorem step_of_masked {s : State} (h : s.intEnabled = false) :
    step s = if s.debugOn then .refused .debugMode else runInstr s.dropIrq := by
  have hnone := (acceptedIrq_eq_none_iff s).mpr (.inl h)
  cases hdebug : s.debugOn with
  | true => exact step_of_debugOn hdebug
  | false => exact step_eq_runInstr hdebug hnone

/-- Settles O48: the two states differ in the answer that a masked step uses up unread. -/
theorem maskedRequestLeavesNoTrace : Obligations.MaskedRequestLeavesNoTrace := by
  unfold Obligations.MaskedRequestLeavesNoTrace
  intro s a b rest hmasked
  have hdrop (c : Option VecNum) :
      State.dropIrq { s with irqIn := .listed c rest } = { s with irqIn := rest } := rfl
  rw [step_of_masked (s := { s with irqIn := .listed a rest }) hmasked,
    step_of_masked (s := { s with irqIn := .listed b rest }) hmasked, hdrop, hdrop]
  rfl

/-! ### The words of the spec's examples: O6 -/

/-- A word that an instruction encodes to decodes to it. -/
theorem decode_of_encode {w : Word} {i : Instr} (h : encode standardOpc i = w) :
    decode standardOpc w = .ok i := by
  rw [← h]
  exact decodeEncodeRoundTrip standardOpc i standardOpcodesDistinct.1

/-- Settles O6: each word is the encoding of the instruction named. -/
theorem specWordsDecode : Obligations.SpecWordsDecode := by
  unfold Obligations.SpecWordsDecode
  refine ⟨?_, ?_, ?_, ?_, ?_, ?_, ?_, ?_, ?_, ?_, ?_, ?_, ?_, ?_, ?_, ?_⟩
  all_goals exact decode_of_encode (by decide)

end Sys2Proof.Proofs
